-- ==== Sys2Proof/Word.lean ====
section
/-! DEFINITION. The machine's words: 32-bit register values (00_scope.md R9) and 8-bit codewords, all unsigned (R11). -/

namespace Sys2Proof

/-- A register value or command word: 32 bits (00_scope.md R9, 10_state.md R22). -/
abbrev Word := BitVec 32

/-- A codeword, and an element of GF(256): 8 bits (00_scope.md R9, 41_gf_rs.md R130). -/
abbrev Byte := BitVec 8

/-- A byte offset inside the block's window: the block decodes offset bits [16:0] (20_memory.md R61). -/
abbrev Offset := BitVec 17

end Sys2Proof
end

