-- ==== Sys2Proof/Config.lean ====
section
/-! DEFINITION. What this hardware fixes (00_scope.md R9), and the values the spec leaves open, as constants with no body. -/

namespace Sys2Proof.Config

/-- The ID register: "QR" and interface revision 7 (10_state.md R23). -/
def idWord : Word := 0x51520007#32

/-- `MAX_VERSION` (00_scope.md R9); the legal versions are 1 to 29 (10_state.md R29). -/
def maxVersion : Nat := 29

/-- `MAX_SIZE`: M has 133 × 133 cells (00_scope.md R9, 10_state.md R42). -/
def maxSize : Nat := 133

/-- `CW_MAX`: the codeword buffer has 4096 bytes (00_scope.md R9, 10_state.md R41). -/
def cwMax : Nat := 4096

/-- The default of the parameter `SUPPORTED_EC_LENGTHS` (00_scope.md R9, R10). The machine holds the parameter
itself in `State.ecLengths` (log 9, DESIGN CHOICE). -/
def defaultEcLengths : List Nat := [7, 10, 13, 15, 16, 17, 18, 20, 22, 24, 26, 28, 30]

/-- Free value (log 5): the byte that `CW[i]` holds after the reset numbered `epoch` until something writes it.
70_reset_and_hazards.md R262: "a fixed, unknown byte". -/
opaque cwAfterReset (epoch i : Nat) : Byte

/-- Free value (log 15): the platform address of offset 0 of the window, OPEN parameter `QR_BASE` (00_scope.md R9). -/
opaque qrBase : Nat

/-- Free value (log 15): the platform interrupt line that `QR_IRQ` drives, OPEN parameter `QR_IRQ_LINE`
(60_exceptions.md R240). -/
opaque irqLine : Nat

end Sys2Proof.Config
end

