-- ==== Sys2Proof/Syntax.lean ====
section
/-! DEFINITION. The ten commands of the opcode map (30_encoding.md R91), one constructor for each row of the opcode table. -/

namespace Sys2Proof

/-- A command. Only GF_MUL has operands in its word (30_encoding.md R92); the others take theirs from the command
latch (10_state.md R40). -/
inductive Instr where
  /-- NOP, OPC 0x00 (40_command_control.md R120). -/
  | nop
  /-- GF_MUL, OPC 0x01, layout G: the two field operands A and B (41_gf_rs.md R135). -/
  | gfMul (a b : Byte)
  /-- RS_GEN, OPC 0x02 (41_gf_rs.md R140). -/
  | rsGen
  /-- MAT_INIT, OPC 0x03 (42_matrix.md R160). -/
  | matInit
  /-- PLACE, OPC 0x04 (42_matrix.md R177). -/
  | place
  /-- MASK, OPC 0x05 (42_matrix.md R182). -/
  | mask
  /-- STAMP_FMT, OPC 0x06 (43_stamp.md R201). -/
  | stampFmt
  /-- STAMP_VER, OPC 0x07 (43_stamp.md R206). -/
  | stampVer
  /-- BUILD, OPC 0x08 (44_composite.md R220). -/
  | build
  /-- ENCODE, OPC 0x09 (44_composite.md R222). -/
  | encode
  deriving DecidableEq, Repr

end Sys2Proof
end

