-- ==== Sys2Proof/Machine/State.lean ====
section
/-! DEFINITION. The machine's state as plain data, its reset value, and the reasons a step can stop. -/

namespace Sys2Proof.Machine

/-- The kind of a matrix cell (10_state.md R43). -/
inductive Kind where
  | unset
  | function
  | reserved
  | data
  deriving DecidableEq, Repr

/-- A matrix cell: its kind and its value, dark = true (00_scope.md R12, 10_state.md R42). -/
structure MatCell where
  kind : Kind
  val : Bool
  deriving DecidableEq, Repr

/-- The cell that MAT_INIT's clearing leaves, and that an unlisted cell reads as (42_matrix.md R161; log 7). -/
def MatCell.blank : MatCell := ⟨.unset, false⟩

/-- Sparse memory: pairs of a key and a value, keys strictly rising. -/
abbrev Mem (α : Type) := List (Nat × α)

/-- The codeword buffer CW (10_state.md R41). The key of `CW[i]` is `i`; a byte is listed exactly when something has
written it since reset (log 6). -/
abbrev Codewords := List Host.Cell

/-- The matrix memory M (10_state.md R42): rows by row number, each row its cells by column number. -/
abbrev Matrix := Mem (Mem MatCell)

/-- The error codes that are ever recorded (60_exceptions.md R231). -/
inductive ErrCode where
  /-- 0: no error recorded. -/
  | none
  /-- 1: no command has this word (30_encoding.md R93). -/
  | illegalCmd
  /-- 2: a command written while BUSY = 1 (40_command_control.md R111). -/
  | cmdWhileBusy
  /-- 3: CONFIG.VERSION is 0, 30 or 31 (10_state.md R29). -/
  | badVersion
  /-- 4: no matrix has been initialised (10_state.md R44). -/
  | noMatrix
  /-- 5: DATA_LEN + EC_LEN is over 4096. -/
  | cwOverflow
  /-- 6: a host access of a wrong width or alignment, or to a closed window (20_memory.md R65, R66). -/
  | busAccess
  deriving DecidableEq, Repr

/-- The command latch (10_state.md R40). -/
structure Latch where
  word : Word
  version : BitVec 5
  ecl : BitVec 2
  mask : BitVec 3
  dlen : BitVec 13
  elen : BitVec 8
  deriving DecidableEq, Repr

/-- The width of a host access: 1, 2 or 4 bytes (00_scope.md R12). -/
inductive Width where
  | byte
  | half
  | word
  deriving DecidableEq, Repr

/-- What can happen next to the block (60_exceptions.md R236, R242): a host access, a reset, or a turn of the engine.
Of a write's value only the bytes of the access are used (20_memory.md R64). -/
inductive Event where
  /-- `MemRead(off, n)`. -/
  | read (off : Offset) (width : Width)
  /-- `MemWrite(off, n, v)`. -/
  | write (off : Offset) (width : Width) (value : Word)
  /-- `QR_RST` is asserted (70_reset_and_hazards.md R260). -/
  | reset
  /-- The engine moves: it completes the running command, or has no step (40_command_control.md R114). -/
  | engine
  deriving DecidableEq, Repr

/-- The state: everything the spec gives the block, and four fields of the model's own (`ecLengths`, `resets`, `inbox`,
`readData`). -/
structure State where
  /-- CTRL.IRQ_EN (10_state.md R24). -/
  irqEn : Bool
  /-- STATUS.BUSY (10_state.md R26). -/
  busy : Bool
  /-- STATUS.DONE. -/
  done : Bool
  /-- STATUS.ERR. -/
  err : Bool
  /-- STATUS.ECUNSUP. -/
  ecunsup : Bool
  /-- STATUS.TRUNC. -/
  trunc : Bool
  /-- STATUS.ERRMULT. -/
  errMult : Bool
  /-- STATUS.ERRCODE. -/
  errCode : ErrCode
  /-- CONFIG.VERSION (10_state.md R28). -/
  version : BitVec 5
  /-- CONFIG.ECL. -/
  ecl : BitVec 2
  /-- CONFIG.MASK. -/
  mask : BitVec 3
  /-- DATA_LEN.LEN (10_state.md R32). -/
  dataLen : BitVec 13
  /-- EC_LEN.LEN (10_state.md R33). -/
  ecLen : BitVec 8
  /-- GF_RESULT (10_state.md R34). -/
  gfResult : Byte
  /-- MAT_INFO.MAT_VERSION (10_state.md R35). -/
  matVersion : BitVec 5
  /-- MAT_INFO.MAT_SIZE. -/
  matSize : BitVec 8
  /-- PLACED.COUNT (10_state.md R36). -/
  placed : BitVec 16
  /-- ERRINFO (10_state.md R37). -/
  errInfo : Word
  /-- The command latch (10_state.md R40). -/
  latch : Latch
  /-- The codeword buffer (10_state.md R41). -/
  cw : Codewords
  /-- The matrix memory (10_state.md R42). -/
  mat : Matrix
  /-- The parameter `SUPPORTED_EC_LENGTHS` (00_scope.md R10; log 9): no step changes it. -/
  ecLengths : List Nat
  /-- How many resets have been asserted: the index of this life's free CW bytes (log 14). -/
  resets : Nat
  /-- What happens next, first entry first (log 2). -/
  inbox : List Event
  /-- The value the last host read returned; none before the first read (log 4). -/
  readData : Option Word
  deriving DecidableEq, Repr

/-- The latch after reset: unspecified and unread, DESIGN CHOICE all zero (10_state.md R40, R52; log 8). -/
def Latch.reset : Latch :=
  { word := 0, version := 0, ecl := 0, mask := 0, dlen := 0, elen := 0 }

/-- The machine right after reset (10_state.md R52, 70_reset_and_hazards.md R261 to R263). -/
def State.reset : State :=
  { irqEn := false, busy := false, done := false, err := false, ecunsup := false, trunc := false, errMult := false,
    errCode := .none, version := 1, ecl := 0, mask := 0, dataLen := 0, ecLen := 0, gfResult := 0, matVersion := 0,
    matSize := 0, placed := 0, errInfo := 0, latch := Latch.reset, cw := [], mat := [],
    ecLengths := Config.defaultEcLengths, resets := 0, inbox := [], readData := none }

/-- The model's own fault. The block itself has no fault, trap or stuck state (60_exceptions.md R230). -/
inductive Fault where
  /-- Raised by `step` alone, at a turn of the engine with BUSY = 1 and a latched word that is no command. No accepted
  command leaves such a latch (40_command_control.md R110), so no run from reset raises it. Safe: the model stops where
  the spec describes no machine (log 17). -/
  | illegalLatch
  deriving DecidableEq, Repr

/-- Reasons to have no meaning. -/
inductive Refusal where
  /-- Raised by an arm of `exec` whose command has no meaning yet; no arm does. Safe: the model stops. -/
  | notModelled (mnemonic : String)
  deriving DecidableEq, Repr

end Sys2Proof.Machine
end

