-- ==== Sys2Proof/Machine/Memory.lean ====
section
/-! DEFINITION. Sparse memories in one canonical form, and the two memories of the block over them: CW (10_state.md R41)
and M (10_state.md R42). -/

namespace Sys2Proof.Machine

namespace Mem

variable {α : Type} [DecidableEq α]

/-- The value listed under a key. -/
def find (k : Nat) : Mem α → Option α
  | [] => none
  | (a, x) :: m => if k = a then some x else find k m

/-- List a value under a key, in key order. -/
def insert (k : Nat) (x : α) : Mem α → Mem α
  | [] => [(k, x)]
  | (a, y) :: m => if k < a then (k, x) :: (a, y) :: m else if k = a then (k, x) :: m else (a, y) :: insert k x m

/-- List nothing under a key. -/
def erase (k : Nat) (m : Mem α) : Mem α := m.filter fun e => decide (e.1 ≠ k)

/-- What a key reads as: its listed value, or `blank`, what an unlisted key reads as. -/
def load (blank : Option α) (k : Nat) (m : Mem α) : Option α :=
  match find k m with
  | some x => some x
  | none => blank

/-- Write a value under a key; writing what an unlisted key reads as lists nothing. -/
def store (blank : Option α) (k : Nat) (x : α) (m : Mem α) : Mem α :=
  if some x = blank then erase k m else insert k x m

/-- The canonical form: keys strictly rising, each a key that exists, and no entry equal to what an unlisted key reads
as. -/
abbrev wf (blank : Option α) (exists_ : Nat → Bool) (m : Mem α) : Prop :=
  m.Pairwise (fun e f => e.1 < f.1) ∧ ∀ e ∈ m, exists_ e.1 = true ∧ some e.2 ≠ blank

end Mem

/-! ## The codeword buffer -/

/-- The indexes of CW: 0 to 4095 (10_state.md R41). -/
def cwExists (i : Nat) : Bool := decide (i < Config.cwMax)

/-- An unlisted byte of CW has no value in the list: nothing has written it since reset (log 6). -/
def cwBlank : Option Byte := none

/-- The canonical form of CW. -/
abbrev cwWf (m : Codewords) : Prop := Mem.wf cwBlank cwExists m

/-- `CW[i]` (10_state.md R41): the byte written last, or the unspecified byte that reset left
(70_reset_and_hazards.md R262; log 5). -/
def loadCw (epoch : Nat) (m : Codewords) (i : Nat) : Byte :=
  match Mem.load cwBlank i m with
  | some b => b
  | none => Config.cwAfterReset epoch i

/-- `CW[i] <- b`. There is no storage at 4096 and above (log 13). -/
def storeCw (m : Codewords) (i : Nat) (b : Byte) : Codewords :=
  if cwExists i then Mem.store cwBlank i b m else m

/-- `CW[i + j] <- bs[j]` for each byte of a list, in order. -/
def storeBytes (m : Codewords) (i : Nat) : List Byte → Codewords
  | [] => m
  | b :: bs => storeBytes (storeCw m i b) (i + 1) bs

/-! ## The matrix memory -/

/-- The rows and the columns of M: 0 to 132 each (10_state.md R42). -/
def lineExists (i : Nat) : Bool := decide (i < Config.maxSize)

/-- What an unlisted cell of a row reads as (log 7). -/
def cellBlank : Option MatCell := some MatCell.blank

/-- What an unlisted row reads as: no cell of it is listed. -/
def rowBlank : Option (Mem MatCell) := some []

/-- The canonical form of M: the rows in canonical form, and each row's cells. -/
abbrev matWf (m : Matrix) : Prop := Mem.wf rowBlank lineExists m ∧ ∀ e ∈ m, Mem.wf cellBlank lineExists e.2

/-- The listed cells of row `r`. -/
def loadRow (m : Matrix) (r : Nat) : Mem MatCell :=
  match Mem.load rowBlank r m with
  | some row => row
  | none => []

/-- `M[r][c]`. -/
def loadCell (m : Matrix) (r c : Nat) : MatCell :=
  match Mem.load cellBlank c (loadRow m r) with
  | some x => x
  | none => MatCell.blank

/-- `M[r][c] <- x`. There is no storage outside the 133 × 133 cells (log 13). -/
def storeCell (m : Matrix) (r c : Nat) (x : MatCell) : Matrix :=
  if lineExists r && lineExists c then Mem.store rowBlank r (Mem.store cellBlank c x (loadRow m r)) m else m

/-- A cell to be written and its new content. -/
abbrev CellWrite := Nat × Nat × MatCell

/-- Write cells in order, a later write to a cell replacing an earlier one (42_matrix.md R160). -/
def storeCells (m : Matrix) (ws : List CellWrite) : Matrix :=
  ws.foldl (fun m w => storeCell m w.1 w.2.1 w.2.2) m

/-- A row whose cells in the columns below `n` are (UNSET, 0); none when no cell stays listed. -/
def clearRow (n : Nat) (e : Nat × Mem MatCell) : Option (Nat × Mem MatCell) :=
  if e.1 < n then
    if (e.2.filter fun x => decide (n ≤ x.1)) = [] then none else some (e.1, e.2.filter fun x => decide (n ≤ x.1))
  else some e

/-- `M[r][c] <- (UNSET, 0)` for every cell of the n × n square (42_matrix.md R161): no cell of it stays listed. -/
def clearSquare (n : Nat) (m : Matrix) : Matrix := m.filterMap (clearRow n)

/-- The cells of the n × n square, row by row. -/
def squareCells (n : Nat) : List (Nat × Nat) :=
  (List.range n).flatMap fun r => (List.range n).map fun c => (r, c)

end Sys2Proof.Machine
end

