-- ==== Sys2Proof/Machine/Operands.lean ====
section
/-! DEFINITION. The operands of the commands: the latch's lengths as numbers (10_state.md R40, 30_encoding.md R92), the
data codewords (41_gf_rs.md R138) and the bits of the codeword stream (20_memory.md R68). -/

namespace Sys2Proof.Machine

/-- `CW[i]` in this state. -/
def cwByte (s : State) (i : Nat) : Byte := loadCw s.resets s.cw i

/-- `CW[0 .. k-1]` (10_state.md R41). -/
def dataCodewords (s : State) (k : Nat) : List Byte := (List.range k).map (cwByte s)

/-- `N = L.dlen + L.elen` codewords, without wrap (42_matrix.md R176). -/
def streamLength (s : State) : Nat := s.latch.dlen.toNat + s.latch.elen.toNat

/-- Stream bit `i` of `N` codewords: bit `7 - (i mod 8)` of `CW[⌊i/8⌋]`, and 0 from `8N` on (42_matrix.md R176). -/
def streamBit (s : State) (N i : Nat) : Bool :=
  if i < 8 * N then (cwByte s (i / 8)).getLsbD (7 - i % 8) else false

end Sys2Proof.Machine
end

