-- ==== Sys2Proof/WellFormed.lean ====
section
/-! DEFINITION. Well-formed commands. The operand types already bound every operand of a command, so each term is
well-formed; the checks that can fail are those of the host-script lines (Machine/Script.lean, `Line.wellFormed`). -/

namespace Sys2Proof

/-- Every command term has an encoding: A and B are bytes by their type (30_encoding.md R92), no other command has an
operand. -/
def Instr.wellFormed : Instr → Bool
  | .nop | .gfMul _ _ | .rsGen | .matInit | .place | .mask | .stampFmt | .stampVer | .build | .encode => true

end Sys2Proof
end

