-- ==== Sys2Proof/Decode.lean ====
section
/-! DEFINITION. Decoding a command word, total on all 2^32 words and rejecting by name (30_encoding.md R93, R94), and
the encoder from the same layouts (R90, R91). -/

namespace Sys2Proof

/-- Why a word is no command; both are reported to the host as ILLEGAL_CMD (30_encoding.md R93). -/
inductive Illegal where
  /-- OPC is 0x0A to 0xFF. -/
  | reservedOpcode
  /-- The opcode exists and a bit that its layout reserves is 1. -/
  | reservedBits
  deriving DecidableEq, Repr

/-- OPC, bits [7:0] (30_encoding.md R90). -/
def opcField (w : Word) : Byte := w.extractLsb' 0 8

/-- Operand A of layout G, bits [15:8] (30_encoding.md R92). -/
def aField (w : Word) : Byte := w.extractLsb' 8 8

/-- Operand B of layout G, bits [23:16] (30_encoding.md R92). -/
def bField (w : Word) : Byte := w.extractLsb' 16 8

/-- Layout Z: bits [31:8] must be 0 (30_encoding.md R93). -/
def decodeZ (w : Word) (i : Instr) : Except Illegal Instr :=
  if w.extractLsb' 8 24 = 0#24 then .ok i else .error .reservedBits

/-- Layout G: bits [31:24] must be 0 (30_encoding.md R93). -/
def decodeG (w : Word) : Except Illegal Instr :=
  if w.extractLsb' 24 8 = 0#8 then .ok (.gfMul (aField w) (bField w)) else .error .reservedBits

/-- The decoder of 30_encoding.md R94 over the opcode map R91. -/
def decode (w : Word) : Except Illegal Instr :=
  match (opcField w).toNat with
  | 0x00 => decodeZ w .nop
  | 0x01 => decodeG w
  | 0x02 => decodeZ w .rsGen
  | 0x03 => decodeZ w .matInit
  | 0x04 => decodeZ w .place
  | 0x05 => decodeZ w .mask
  | 0x06 => decodeZ w .stampFmt
  | 0x07 => decodeZ w .stampVer
  | 0x08 => decodeZ w .build
  | 0x09 => decodeZ w .encode
  | _ => .error .reservedOpcode

/-- The opcode of a command (30_encoding.md R91). -/
def opcode : Instr → Byte
  | .nop => 0x00#8
  | .gfMul _ _ => 0x01#8
  | .rsGen => 0x02#8
  | .matInit => 0x03#8
  | .place => 0x04#8
  | .mask => 0x05#8
  | .stampFmt => 0x06#8
  | .stampVer => 0x07#8
  | .build => 0x08#8
  | .encode => 0x09#8

/-- Layout Z as a word: OPC below 24 zero bits (30_encoding.md R90). -/
def encodeZ (opc : Byte) : Word := 0#24 ++ opc

/-- Layout G as a word: 0, B, A, OPC from the top byte down (30_encoding.md R90). -/
def encodeG (opc a b : Byte) : Word := 0#8 ++ b ++ a ++ opc

/-- The word of a command (30_encoding.md R90, R91). -/
def encode : Instr → Word
  | .gfMul a b => encodeG (opcode (.gfMul a b)) a b
  | .nop => encodeZ (opcode .nop)
  | .rsGen => encodeZ (opcode .rsGen)
  | .matInit => encodeZ (opcode .matInit)
  | .place => encodeZ (opcode .place)
  | .mask => encodeZ (opcode .mask)
  | .stampFmt => encodeZ (opcode .stampFmt)
  | .stampVer => encodeZ (opcode .stampVer)
  | .build => encodeZ (opcode .build)
  | .encode => encodeZ (opcode .encode)

/-- The command this decoder reads from an opcode-table row's bits. Every command is one 32-bit word and the table
numbers its bits as the word does (30_encoding.md R90). -/
def decodeTableWord (nbits w : Nat) : Option Instr :=
  (decode (BitVec.ofNat 32 (w % 2 ^ nbits))).toOption

end Sys2Proof
end

