-- ==== Sys2Proof/Machine/Ops.lean ====
section
/-! DEFINITION. The operations every command shares: recording an error (this hardware's exception entry,
60_exceptions.md R232), acceptance (40_command_control.md R112), completion (R114) and reset (70_reset_and_hazards.md
R260). Acknowledging an error, the counterpart of a return, is `writeStatus` in Flags.lean (60_exceptions.md R239). -/

namespace Sys2Proof.Machine

/-- `raise Error(code, info)` (60_exceptions.md R232): the first error is kept, a later one only sets ERRMULT. -/
def raiseError (code : ErrCode) (info : Word) (s : State) : State :=
  if s.err then { s with errMult := true } else { s with err := true, errCode := code, errInfo := info }

/-- Acceptance of the command word `w` (40_command_control.md R112): load the latch, BUSY <- 1, DONE <- 0. -/
def accept (w : Word) (s : State) : State :=
  { s with
    latch :=
      { word := w, version := s.version, ecl := s.ecl, mask := s.mask, dlen := s.dataLen, elen := s.ecLen }
    busy := true
    done := false }

/-- What the completion step does beside the command's own effect (40_command_control.md R114): BUSY <- 0, DONE <- 1. -/
def complete (s : State) : State := { s with busy := false, done := true }

/-- Assertion of `QR_RST` (70_reset_and_hazards.md R260, 10_state.md R52). The parameter, what happens next and what the
host last read are not state of the block and stay; the unspecified CW bytes are fresh (log 14). -/
def applyReset (s : State) : State :=
  { State.reset with ecLengths := s.ecLengths, resets := s.resets + 1, inbox := s.inbox, readData := s.readData }

end Sys2Proof.Machine
end

