-- ==== Sys2Proof/Machine/Galois.lean ====
section
/-! DEFINITION. GF(256) arithmetic, the Reed-Solomon generator, and the commands GF_MUL and RS_GEN (41_gf_rs.md). -/

namespace Sys2Proof.Machine

/-- `gf_mul(a, b)` (41_gf_rs.md R134): zero is tested first, so LOG[0] is never read. -/
def gfMul (a b : Byte) : Byte := if a = 0 ∨ b = 0 then 0 else expAt (logAt a + logAt b)

/-- Multiply a polynomial (highest degree first) by `x - root`; `prev` is the coefficient before the list. -/
def mulRoot (root prev : Byte) : List Byte → List Byte
  | [] => [gfMul root prev]
  | x :: xs => (x ^^^ gfMul root prev) :: mulRoot root x xs

/-- `g_n(x) = (x - α^0) ... (x - α^(n-1))`, coefficients `g_n[0] .. g_n[n]`, highest degree first (41_gf_rs.md R136). -/
def genPoly : Nat → List Byte
  | 0 => [1]
  | n + 1 => mulRoot (expAt n) 0 (genPoly n)

/-- One data byte through the division register (41_gf_rs.md R139): `g` is `g_n[1] .. g_n[n]`, `r` the register. -/
def rsStep (g r : List Byte) (d : Byte) : List Byte :=
  List.zipWith (fun x y => x ^^^ y) (r.tail ++ [0]) (g.map fun c => gfMul c (d ^^^ r.headD 0))

/-- `rs_remainder` (41_gf_rs.md R139): the register after the data bytes, highest degree first. -/
def rsRemainder (n : Nat) (data : List Byte) : List Byte :=
  data.foldl (rsStep (genPoly n).tail) (List.replicate n 0)

/-- The effect of RS_GEN on `k` data codewords and `n` EC codewords (41_gf_rs.md R140 to R143). -/
def rsGenEffect (k n : Nat) (s : State) : State :=
  if n = 0 then s
  else if n ∈ s.ecLengths then { s with cw := storeBytes s.cw k (rsRemainder n (dataCodewords s k)) }
  else { s with cw := storeBytes s.cw k (List.replicate n 0), ecunsup := true }

/-- GF_MUL (41_gf_rs.md R135). -/
def execGfMul (a b : Byte) (s : State) : Host.Outcome State Fault Refusal :=
  .next (complete { s with gfResult := gfMul a b })

/-- RS_GEN (41_gf_rs.md R140). -/
def execRsGen (s : State) : Host.Outcome State Fault Refusal :=
  .next (complete (rsGenEffect s.latch.dlen.toNat s.latch.elen.toNat s))

end Sys2Proof.Machine
end

