-- ==== Sys2Proof/Machine/Cells.lean ====
section
/-! DEFINITION. Where the patterns of a symbol lie: the cells that MAT_INIT and the stamps write (42_matrix.md R160 to
R170, 43_stamp.md R202, R207), the zigzag order (R175) and the mask conditions (R181). `n` is the matrix size. -/

namespace Sys2Proof.Machine

/-- The distance |i - j| of two indexes. -/
def gap (i j : Nat) : Nat := (i - j) + (j - i)

/-- A FUNCTION cell of a value. -/
def functionCell (v : Bool) : MatCell := ⟨.function, v⟩

/-- A RESERVED cell of a value. -/
def reservedCell (v : Bool) : MatCell := ⟨.reserved, v⟩

/-- The top-left cells of the three finder patterns (42_matrix.md R162). -/
def finderOrigins (n : Nat) : List (Nat × Nat) := [(0, 0), (0, n - 7), (n - 7, 0)]

/-- One finder pattern: dark but for the ring at distance 2 of its centre (42_matrix.md R162). -/
def finderAt (r0 c0 : Nat) : List CellWrite :=
  (squareCells 7).map fun p =>
    (r0 + p.1, c0 + p.2, functionCell (decide (max (gap p.1 3) (gap p.2 3) ≠ 2)))

/-- One separator: the cells (r0 + i, c0 + j) with i, j in -1..7, outside the finder and inside the matrix
(42_matrix.md R163). `p` counts from -1, so the cell is (r0 + p.1 - 1, c0 + p.2 - 1). -/
def separatorAt (n r0 c0 : Nat) : List CellWrite :=
  ((squareCells 9).filter fun p =>
      !(decide (1 ≤ p.1) && decide (p.1 ≤ 7) && decide (1 ≤ p.2) && decide (p.2 ≤ 7))
        && decide (1 ≤ r0 + p.1) && decide (1 ≤ c0 + p.2) && decide (r0 + p.1 - 1 < n) && decide (c0 + p.2 - 1 < n)).map
    fun p => (r0 + p.1 - 1, c0 + p.2 - 1, functionCell false)

/-- Step 1 of MAT_INIT: the finder patterns with their separators (42_matrix.md R162, R163). -/
def finderWrites (n : Nat) : List CellWrite :=
  (finderOrigins n).flatMap fun o => finderAt o.1 o.2 ++ separatorAt n o.1 o.2

/-- Step 2: the timing patterns, indexes 8 to n-9 of row 6 and column 6, dark at even indexes (42_matrix.md R164). -/
def timingWrites (n : Nat) : List CellWrite :=
  (List.range' 8 (n - 16)).flatMap fun t =>
    [(6, t, functionCell (decide (t % 2 = 0))), (t, 6, functionCell (decide (t % 2 = 0)))]

/-- `round(a / b) = ⌊a/b + 1/2⌋` (42_matrix.md R165). -/
def roundDiv (a b : Nat) : Nat := (2 * a + b) / (2 * b)

/-- The alignment centres `P` (42_matrix.md R165). -/
def alignmentCentres (v n : Nat) : List Nat :=
  let intervals := v / 7 + 1
  let step := roundDiv (n - 13) intervals
  6 :: (List.range intervals).map fun i => n - 7 - (intervals - (i + 1)) * step

/-- One alignment pattern: dark but for the ring at distance 1 of its centre (42_matrix.md R166). -/
def alignmentAt (r c : Nat) : List CellWrite :=
  (squareCells 5).map fun p =>
    (r + p.1 - 2, c + p.2 - 2, functionCell (decide (max (gap p.1 2) (gap p.2 2) ≠ 1)))

/-- Step 3: an alignment pattern at every pair of centres but the three on finder patterns (42_matrix.md R166). -/
def alignmentWrites (v n : Nat) : List CellWrite :=
  (alignmentCentres v n).flatMap fun r => (alignmentCentres v n).flatMap fun c =>
    if (r, c) ∈ [(6, 6), (6, n - 7), (n - 7, 6)] then [] else alignmentAt r c

/-- Copy 1 of format bit `i` (43_stamp.md R202). -/
def fmtCell1 (i : Nat) : Nat × Nat :=
  if i ≤ 5 then (i, 8) else if i = 6 then (7, 8) else if i = 7 then (8, 8) else if i = 8 then (8, 7) else (8, 14 - i)

/-- Copy 2 of format bit `i` (43_stamp.md R202). -/
def fmtCell2 (i n : Nat) : Nat × Nat := if i ≤ 7 then (8, n - 1 - i) else (n - 15 + i, 8)

/-- Version bit `i` in the top-right block (43_stamp.md R207). -/
def verCellTr (i n : Nat) : Nat × Nat := (i / 3, n - 11 + i % 3)

/-- Version bit `i` in the bottom-left block (43_stamp.md R207). -/
def verCellBl (i n : Nat) : Nat × Nat := (n - 11 + i % 3, i / 3)

/-- The 30 format cells with the bits of a word (42_matrix.md R168, 43_stamp.md R201). -/
def fmtWrites (n : Nat) (w : BitVec 15) : List CellWrite :=
  (List.range 15).flatMap fun i =>
    [((fmtCell1 i).1, (fmtCell1 i).2, reservedCell (w.getLsbD i)),
     ((fmtCell2 i n).1, (fmtCell2 i n).2, reservedCell (w.getLsbD i))]

/-- The 36 version cells with the bits of a word (42_matrix.md R169, 43_stamp.md R206). -/
def verWrites (n : Nat) (w : BitVec 18) : List CellWrite :=
  (List.range 18).flatMap fun i =>
    [((verCellTr i n).1, (verCellTr i n).2, reservedCell (w.getLsbD i)),
     ((verCellBl i n).1, (verCellBl i n).2, reservedCell (w.getLsbD i))]

/-- The dark module (42_matrix.md R170). -/
def darkWrite (n : Nat) : CellWrite := (n - 8, 8, functionCell true)

/-- What MAT_INIT writes after clearing, in order (42_matrix.md R160). -/
def initWrites (v n : Nat) : List CellWrite :=
  finderWrites n ++ timingWrites n ++ (if 1 < v then alignmentWrites v n else []) ++ fmtWrites n 0
    ++ (if 7 ≤ v then verWrites n 0 else []) ++ [darkWrite n]

/-- One column pair of the zigzag: the cells (r, right), (r, right - 1) row by row (42_matrix.md R175). -/
def zigzagPair (n right : Nat) (upward : Bool) : List (Nat × Nat) :=
  (List.range n).flatMap fun t =>
    let r := if upward then n - 1 - t else t
    [(r, right), (r, right - 1)]

/-- The zigzag's `while right >= 1` loop (42_matrix.md R175). Each round lowers `right` by at least 2, so `n` rounds of
fuel never run out. -/
def zigzagFrom (n : Nat) : (fuel k right : Nat) → List (Nat × Nat)
  | 0, _, _ => []
  | fuel + 1, k, right =>
    if 1 ≤ right then
      let right' := if right = 6 then 5 else right
      zigzagPair n right' (decide (k % 2 = 0)) ++ zigzagFrom n fuel (k + 1) (right' - 2)
    else []

/-- `zigzag(n)` (42_matrix.md R175). -/
def zigzag (n : Nat) : List (Nat × Nat) := zigzagFrom n n 0 (n - 1)

/-- `cond_m(r, c)` (42_matrix.md R181). -/
def maskCond (m : BitVec 3) (r c : Nat) : Bool :=
  match m.toNat with
  | 0 => decide ((r + c) % 2 = 0)
  | 1 => decide (r % 2 = 0)
  | 2 => decide (c % 3 = 0)
  | 3 => decide ((r + c) % 3 = 0)
  | 4 => decide ((r / 2 + c / 3) % 2 = 0)
  | 5 => decide ((r * c) % 2 + (r * c) % 3 = 0)
  | 6 => decide (((r * c) % 2 + (r * c) % 3) % 2 = 0)
  | _ => decide (((r + c) % 2 + (r * c) % 3) % 2 = 0)

end Sys2Proof.Machine
end

