-- ==== Sys2Proof/Machine/MatrixCmd.lean ====
section
/-! DEFINITION. The commands MAT_INIT, PLACE and MASK (42_matrix.md). -/

namespace Sys2Proof.Machine

/-- `SIZE(v) = 4·v + 17` (00_scope.md R9). -/
def sizeOf (v : BitVec 5) : Nat := 4 * v.toNat + 17

/-- The effect of MAT_INIT for version `v` (42_matrix.md R160). -/
def matInitEffect (v : BitVec 5) (s : State) : State :=
  { s with
    mat := storeCells (clearSquare (sizeOf v) s.mat) (initWrites v.toNat (sizeOf v))
    matVersion := v
    matSize := BitVec.ofNat 8 (sizeOf v)
    placed := 0 }

/-- One visit of the placement loop: the matrix and the number of bits placed so far (42_matrix.md R177). -/
def placeVisit (stream : Nat → Bool) (acc : Matrix × Nat) (p : Nat × Nat) : Matrix × Nat :=
  if (loadCell acc.1 p.1 p.2).kind = .unset then (storeCell acc.1 p.1 p.2 ⟨.data, stream acc.2⟩, acc.2 + 1) else acc

/-- The placement loop over the zigzag (42_matrix.md R177). -/
def placeLoop (n : Nat) (stream : Nat → Bool) (m : Matrix) : Matrix × Nat :=
  (zigzag n).foldl (placeVisit stream) (m, 0)

/-- The effect of PLACE for `N` codewords (42_matrix.md R177): TRUNC is set when bits are left over, never cleared. -/
def placeEffect (N : Nat) (s : State) : State :=
  let placed := placeLoop s.matSize.toNat (streamBit s N) s.mat
  { s with
    mat := placed.1
    placed := BitVec.ofNat 16 placed.2
    trunc := s.trunc || decide (placed.2 < 8 * N) }

/-- One cell of the masking loop (42_matrix.md R182): only DATA cells change, in their value (R183). -/
def maskVisit (id : BitVec 3) (m : Matrix) (p : Nat × Nat) : Matrix :=
  if (loadCell m p.1 p.2).kind = .data ∧ maskCond id p.1 p.2 = true then
    storeCell m p.1 p.2 ⟨.data, !(loadCell m p.1 p.2).val⟩
  else m

/-- The effect of MASK with mask `id` (42_matrix.md R182). -/
def maskEffect (id : BitVec 3) (s : State) : State :=
  { s with mat := (squareCells s.matSize.toNat).foldl (maskVisit id) s.mat }

/-- MAT_INIT (42_matrix.md R160). -/
def execMatInit (s : State) : Host.Outcome State Fault Refusal := .next (complete (matInitEffect s.latch.version s))

/-- PLACE (42_matrix.md R177). -/
def execPlace (s : State) : Host.Outcome State Fault Refusal := .next (complete (placeEffect (streamLength s) s))

/-- MASK (42_matrix.md R182). -/
def execMask (s : State) : Host.Outcome State Fault Refusal := .next (complete (maskEffect s.latch.mask s))

end Sys2Proof.Machine
end

