-- ==== Sys2Proof/Machine/Stamp.lean ====
section
/-! DEFINITION. The commands STAMP_FMT and STAMP_VER (43_stamp.md). -/

namespace Sys2Proof.Machine

/-- The effect of STAMP_FMT for EC level `e` and mask `m` (43_stamp.md R201). -/
def stampFmtEffect (e : BitVec 2) (m : BitVec 3) (s : State) : State :=
  { s with mat := storeCells s.mat (fmtWrites s.matSize.toNat (fmtWord e m)) }

/-- The effect of STAMP_VER: the version is the matrix's own; below 7 no cell changes (43_stamp.md R206). -/
def stampVerEffect (s : State) : State :=
  if 7 ≤ s.matVersion.toNat then
    { s with mat := storeCells s.mat (verWrites s.matSize.toNat (verWord s.matVersion.toNat)) }
  else s

/-- STAMP_FMT (43_stamp.md R201). -/
def execStampFmt (s : State) : Host.Outcome State Fault Refusal :=
  .next (complete (stampFmtEffect s.latch.ecl s.latch.mask s))

/-- STAMP_VER (43_stamp.md R206). -/
def execStampVer (s : State) : Host.Outcome State Fault Refusal := .next (complete (stampVerEffect s))

end Sys2Proof.Machine
end

