-- ==== Sys2Proof/Machine/Composite.lean ====
section
/-! DEFINITION. The composite commands BUILD and ENCODE (44_composite.md): the steps' effects one after the other, their
operands all from the one latch. -/

namespace Sys2Proof.Machine

/-- The effect of BUILD with the operands of a latch (44_composite.md R220). -/
def buildEffect (l : Latch) (s : State) : State :=
  stampVerEffect (stampFmtEffect l.ecl l.mask (maskEffect l.mask
    (placeEffect (l.dlen.toNat + l.elen.toNat) (matInitEffect l.version s))))

/-- The effect of ENCODE with the operands of a latch (44_composite.md R222): BUILD reads the CW just written. -/
def encodeEffect (l : Latch) (s : State) : State := buildEffect l (rsGenEffect l.dlen.toNat l.elen.toNat s)

/-- BUILD (44_composite.md R220). -/
def execBuild (s : State) : Host.Outcome State Fault Refusal := .next (complete (buildEffect s.latch s))

/-- ENCODE (44_composite.md R222). -/
def execEncode (s : State) : Host.Outcome State Fault Refusal := .next (complete (encodeEffect s.latch s))

end Sys2Proof.Machine
end

