-- ==== Sys2Proof/Machine/Control.lean ====
section
/-! DEFINITION. The command NOP (40_command_control.md). -/

namespace Sys2Proof.Machine

/-- NOP: no effect beyond completion (40_command_control.md R120). -/
def execNop (s : State) : Host.Outcome State Fault Refusal := .next (complete s)

end Sys2Proof.Machine
end

