-- ==== Sys2Proof/Machine/Dispatch.lean ====
section
/-! DEFINITION. The completion step of each command (40_command_control.md R114). -/

namespace Sys2Proof.Machine

/-- The completion step of a command: its whole effect, BUSY <- 0 and DONE <- 1 (40_command_control.md R114). -/
def exec (i : Instr) (s : State) : Host.Outcome State Fault Refusal :=
  match i with
  | .nop => Sys2Proof.Machine.execNop s
  | .gfMul a b => Sys2Proof.Machine.execGfMul a b s
  | .rsGen => Sys2Proof.Machine.execRsGen s
  | .matInit => Sys2Proof.Machine.execMatInit s
  | .place => Sys2Proof.Machine.execPlace s
  | .mask => Sys2Proof.Machine.execMask s
  | .stampFmt => Sys2Proof.Machine.execStampFmt s
  | .stampVer => Sys2Proof.Machine.execStampVer s
  | .build => Sys2Proof.Machine.execBuild s
  | .encode => Sys2Proof.Machine.execEncode s

end Sys2Proof.Machine
end

