-- ==== Sys2Proof/Machine/Flags.lean ====
section
/-! DEFINITION. The STATUS register and its flags (10_state.md R26, R27, R50), the word views of the other registers
(R22 to R37), and the interrupt output (60_exceptions.md R240). -/

namespace Sys2Proof.Machine

/-- A flag as one bit of a word. -/
def bit (b : Bool) : BitVec 1 := BitVec.ofBool b

/-- The code of an error in STATUS.ERRCODE (60_exceptions.md R231). -/
def ErrCode.toByte : ErrCode → Byte
  | .none => 0#8
  | .illegalCmd => 1#8
  | .cmdWhileBusy => 2#8
  | .badVersion => 3#8
  | .noMatrix => 4#8
  | .cwOverflow => 5#8
  | .busAccess => 6#8

/-- STATUS as read: ERRCODE in [15:8], ERRMULT 5, TRUNC 4, ECUNSUP 3, ERR 2, DONE 1, BUSY 0, the rest 0
(10_state.md R22, R26). -/
def statusWord (s : State) : Word :=
  0#16 ++ s.errCode.toByte ++ 0#2 ++ bit s.errMult ++ bit s.trunc ++ bit s.ecunsup ++ bit s.err ++ bit s.done
    ++ bit s.busy

/-- CTRL as read (10_state.md R24). -/
def ctrlWord (s : State) : Word := 0#31 ++ bit s.irqEn

/-- CONFIG as read: MASK in [14:12], ECL in [9:8], VERSION in [4:0] (10_state.md R28). -/
def configWord (s : State) : Word := 0#17 ++ s.mask ++ 0#2 ++ s.ecl ++ 0#3 ++ s.version

/-- DATA_LEN as read (10_state.md R32). -/
def dataLenWord (s : State) : Word := 0#19 ++ s.dataLen

/-- EC_LEN as read (10_state.md R33). -/
def ecLenWord (s : State) : Word := 0#24 ++ s.ecLen

/-- GF_RESULT as read (10_state.md R34). -/
def gfResultWord (s : State) : Word := 0#24 ++ s.gfResult

/-- MAT_INFO as read: MAT_SIZE in [23:16], MAT_VERSION in [4:0] (10_state.md R35). -/
def matInfoWord (s : State) : Word := 0#8 ++ s.matSize ++ 0#11 ++ s.matVersion

/-- PLACED as read (10_state.md R36). -/
def placedWord (s : State) : Word := 0#16 ++ s.placed

/-- A write of `w` to STATUS (10_state.md R27): write 1 to clear. It acknowledges an error (60_exceptions.md R239). -/
def writeStatus (w : Word) (s : State) : State :=
  { s with
    done := s.done && !w.getLsbD 1
    err := s.err && !w.getLsbD 2
    errCode := if w.getLsbD 2 then .none else s.errCode
    errInfo := if w.getLsbD 2 then 0 else s.errInfo
    ecunsup := s.ecunsup && !w.getLsbD 3
    trunc := s.trunc && !w.getLsbD 4
    errMult := s.errMult && !w.getLsbD 5 }

/-- `QR_IRQ = CTRL.IRQ_EN AND (STATUS.DONE OR STATUS.ERR)` (60_exceptions.md R240). -/
def irq (s : State) : Bool := s.irqEn && (s.done || s.err)

/-- The level the block puts on a platform interrupt line; it drives the line `QR_IRQ_LINE` only
(60_exceptions.md R240; log 15). -/
def irqOnLine (line : Nat) (s : State) : Bool := decide (line = Config.irqLine) && irq s

end Sys2Proof.Machine
end

