-- ==== Sys2Proof/Machine/Issue.lean ====
section
/-! DEFINITION. Issue: what a host write of a word to CMD does (40_command_control.md R110 to R113). -/

namespace Sys2Proof.Machine

/-- The commands refused while CONFIG.VERSION is not 1 to 29 (40_command_control.md R110, 60_exceptions.md R234). -/
def needsVersion : Instr → Bool
  | .matInit | .build | .encode => true
  | .nop | .gfMul _ _ | .rsGen | .place | .mask | .stampFmt | .stampVer => false

/-- The commands refused while no matrix exists (40_command_control.md R110, 60_exceptions.md R234). -/
def needsMatrix : Instr → Bool
  | .place | .mask | .stampFmt | .stampVer => true
  | .nop | .gfMul _ _ | .rsGen | .matInit | .build | .encode => false

/-- The commands refused when the lengths exceed the buffer (40_command_control.md R110, 60_exceptions.md R234). -/
def needsBuffer : Instr → Bool
  | .rsGen | .place | .build | .encode => true
  | .nop | .gfMul _ _ | .matInit | .mask | .stampFmt | .stampVer => false

/-- The legal versions 1 to 29 (10_state.md R29). -/
def versionLegal (v : BitVec 5) : Bool := decide (1 ≤ v.toNat) && decide (v.toNat ≤ Config.maxVersion)

/-- `DATA_LEN.LEN + EC_LEN.LEN ≤ CW_MAX`, without wrap (40_command_control.md R110). -/
def lengthsFit (d : BitVec 13) (e : BitVec 8) : Bool := decide (d.toNat + e.toNat ≤ Config.cwMax)

/-- The first check of a legal command that fails, in the order of 40_command_control.md R110. -/
def issueError (i : Instr) (s : State) : Option ErrCode :=
  if needsVersion i && !versionLegal s.version then some .badVersion
  else if needsMatrix i && decide (s.matVersion = 0) then some .noMatrix
  else if needsBuffer i && !lengthsFit s.dataLen s.ecLen then some .cwOverflow
  else none

/-- `issue(w)` (40_command_control.md R110): the checks in order, then acceptance. -/
def issue (w : Word) (s : State) : State :=
  if s.busy then raiseError .cmdWhileBusy w s
  else
    match decode w with
    | .error _ => raiseError .illegalCmd w s
    | .ok i =>
      match issueError i s with
      | some code => raiseError code w s
      | none => accept w s

end Sys2Proof.Machine
end

