-- ==== Sys2Proof/Machine/Bus.lean ====
section
/-! DEFINITION. Host accesses to the window: the map, widths and alignment, byte order, refused accesses, register reads
and writes (20_memory.md R60 to R67; 10_state.md R22 to R39; 60_exceptions.md R233). -/

namespace Sys2Proof.Machine

/-- The regions of the window (20_memory.md R62). -/
inductive Region where
  /-- 0x00000 to 0x00FFF: the registers and the reserved register space. -/
  | registers
  /-- 0x01000 to 0x01FFF. -/
  | codewords
  /-- 0x02000 to 0x0FFFF. -/
  | hole
  /-- 0x10000 to 0x1FFFF. -/
  | matrix
  deriving DecidableEq, Repr

/-- The region an offset lies in (20_memory.md R62). -/
def region (off : Offset) : Region :=
  if off.toNat < 0x1000 then .registers
  else if off.toNat < 0x2000 then .codewords
  else if off.toNat < 0x10000 then .hole
  else .matrix

/-- The number of bytes of an access. -/
def Width.bytes : Width → Nat
  | .byte => 1
  | .half => 2
  | .word => 4

/-- The WIDTH field of the access descriptor (60_exceptions.md R233). -/
def Width.code : Width → BitVec 2
  | .byte => 0
  | .half => 1
  | .word => 2

/-- The width and alignment rule of the offset's region (20_memory.md R65). -/
def accessAligned (off : Offset) (w : Width) : Bool :=
  match region off with
  | .registers => decide (w = .word) && decide (off.toNat % 4 = 0)
  | .codewords | .matrix => decide (off.toNat % w.bytes = 0)
  | .hole => true

/-- The windows that are closed while a command runs (20_memory.md R66). -/
def windowClosed (off : Offset) (s : State) : Bool :=
  s.busy &&
    match region off with
    | .codewords | .matrix => true
    | .registers | .hole => false

/-- The access is a bus-access error: one report whether misaligned, closed or both (20_memory.md R65, R66;
60_exceptions.md R235). -/
def accessRefused (off : Offset) (w : Width) (s : State) : Bool := !accessAligned off w || windowClosed off s

/-- The access descriptor in ERRINFO: OFFSET [16:0], WIDTH [25:24], WRITE [31] (60_exceptions.md R233). -/
def accessInfo (off : Offset) (w : Width) (isWrite : Bool) : Word :=
  bit isWrite ++ 0#5 ++ w.code ++ 0#7 ++ off

/-- What a 4-byte read of the register space returns (10_state.md R22 to R38): CMD and every reserved offset read 0. -/
def readRegister (off : Nat) (s : State) : Word :=
  match off with
  | 0x000 => Config.idWord
  | 0x004 => ctrlWord s
  | 0x00C => statusWord s
  | 0x010 => configWord s
  | 0x014 => dataLenWord s
  | 0x018 => ecLenWord s
  | 0x01C => gfResultWord s
  | 0x020 => matInfoWord s
  | 0x024 => placedWord s
  | 0x028 => s.errInfo
  | _ => 0

/-- What a 4-byte write of the register space does (10_state.md R22 to R39): a read-only register or a reserved offset
ignores it (R38); CMD issues (40_command_control.md R110); STATUS clears (R27). -/
def writeRegister (off : Nat) (v : Word) (s : State) : State :=
  match off with
  | 0x004 => { s with irqEn := v.getLsbD 0 }
  | 0x008 => issue v s
  | 0x00C => writeStatus v s
  | 0x010 => { s with version := v.extractLsb' 0 5, ecl := v.extractLsb' 8 2, mask := v.extractLsb' 12 3 }
  | 0x014 => { s with dataLen := v.extractLsb' 0 13 }
  | 0x018 => { s with ecLen := v.extractLsb' 0 8 }
  | _ => s

/-- The code of a kind (10_state.md R43). -/
def Kind.code : Kind → BitVec 2
  | .unset => 0
  | .function => 1
  | .reserved => 2
  | .data => 3

/-- `zext_8({kind_code, val})` (20_memory.md R63). -/
def cellByte (x : MatCell) : Byte := 0#5 ++ x.kind.code ++ bit x.val

/-- A byte of the M window: the cell when it lies in the current square, and 0 otherwise (20_memory.md R63). -/
def matrixByte (s : State) (r c : Nat) : Byte :=
  if r < s.matSize.toNat ∧ c < s.matSize.toNat then cellByte (loadCell s.mat r c) else 0

/-- The byte at an offset of the CW or M window (20_memory.md R62, R63). -/
def windowByte (s : State) (off : Nat) : Byte :=
  if off < 0x2000 then cwByte s (off - 0x1000)
  else matrixByte s ((off - 0x10000) / 256) (off % 256)

/-- A little-endian value: the byte at offset `o + k` is bits [8k+7 : 8k] (20_memory.md R64); a narrow value is
zero-extended (log 4). -/
def joinBytes : List Byte → Word
  | [] => 0
  | b :: bs => (joinBytes bs <<< 8) ||| b.setWidth 32

/-- The bytes of a write, lowest offset first (20_memory.md R64). -/
def splitBytes (v : Word) (n : Nat) : List Byte := (List.range n).map fun k => v.extractLsb' (8 * k) 8

/-- What a read that is not refused returns (20_memory.md R62 to R64). The region is that of the access's offset, so a
read that starts in the reserved window returns 0 whatever it covers (R65; log 19). -/
def readValue (off : Offset) (w : Width) (s : State) : Word :=
  match region off with
  | .registers => readRegister off.toNat s
  | .hole => 0
  | .codewords | .matrix => joinBytes ((List.range w.bytes).map fun k => windowByte s (off.toNat + k))

/-- `MemRead(off, n)`: a refused read returns 0 and is recorded (20_memory.md R65, R66); no other read has a side effect
(R67). -/
def hostRead (off : Offset) (w : Width) (s : State) : State :=
  if accessRefused off w s then { raiseError .busAccess (accessInfo off w false) s with readData := some 0 }
  else { s with readData := some (readValue off w s) }

/-- `MemWrite(off, n, v)`: a refused write changes nothing but the error record (20_memory.md R65, R66); writes to the
reserved window and to the M window are ignored (R62, R63). -/
def hostWrite (off : Offset) (w : Width) (v : Word) (s : State) : State :=
  if accessRefused off w s then raiseError .busAccess (accessInfo off w true) s
  else
    match region off with
    | .registers => writeRegister off.toNat v s
    | .codewords => { s with cw := storeBytes s.cw (off.toNat - 0x1000) (splitBytes v w.bytes) }
    | .hole | .matrix => s

/-- The window offset of a platform address; none outside the window, which is the platform's business (20_memory.md
R61; log 15). -/
def offsetOf (addr : Nat) : Option Offset :=
  if Config.qrBase ≤ addr ∧ addr < Config.qrBase + 2 ^ 17 then some (BitVec.ofNat 17 (addr - Config.qrBase)) else none

end Sys2Proof.Machine
end

