-- ==== Sys2Proof/Machine/Turn.lean ====
section
/-! DEFINITION. What happens next: one host access, one reset, or one turn of the engine (60_exceptions.md R236; log 2). -/

namespace Sys2Proof.Machine

/-- The outcome of looking at what happens next. -/
inductive Turn where
  /-- A host access or a reset has been served, or the engine has no step: this is the next state. -/
  | served (s : State)
  /-- The engine runs the command whose word is `w`. -/
  | run (w : Word) (s : State)
  deriving DecidableEq, Repr

/-- A turn of the engine: its completion step while BUSY = 1, no step while BUSY = 0 (40_command_control.md R114). -/
def engineTurn (s : State) : Turn := if s.busy then .run s.latch.word s else .served s

/-- Take one event. -/
def serve (e : Event) (s : State) : Turn :=
  match e with
  | .read off w => .served (hostRead off w s)
  | .write off w v => .served (hostWrite off w v s)
  | .reset => .served (applyReset s)
  | .engine => engineTurn s

/-- The next event is the first of `inbox`; with nothing pending the engine has the turn, so an accepted command is
completed (70_reset_and_hazards.md R271; log 3). -/
def nextTurn (s : State) : Turn :=
  match s.inbox with
  | [] => engineTurn s
  | e :: rest => serve e { s with inbox := rest }

end Sys2Proof.Machine
end

