-- ==== Sys2Proof/Machine/Step.lean ====
section
/-! DEFINITION. One step: a host access, a reset, or the engine's completion step (60_exceptions.md R236). -/

namespace Sys2Proof.Machine

/-- One step of the block. The engine decodes the latched word and runs the command (40_command_control.md R114). -/
def step (s : State) : Host.Outcome State Fault Refusal :=
  match nextTurn s with
  | .served s' => .next s'
  | .run w s' =>
    match decode w with
    | .ok i => exec i s'
    | .error _ => .fault .illegalLatch

/-- `s` with a command word where `step` takes its next command from: accepted into the latch (40_command_control.md
R112), and the engine's turn next (log 1). -/
def State.withFetchWord (s : State) (nbits w : Nat) : State :=
  { accept (BitVec.ofNat 32 (w % 2 ^ nbits)) s with inbox := .engine :: s.inbox }

end Sys2Proof.Machine
end

