-- ==== Sys2Proof/Machine/Script.lean ====
section
/-! DEFINITION. The host-script notation and its expansion into bus accesses (30_encoding.md R95, R96). -/

namespace Sys2Proof.Machine

/-- The named registers (10_state.md R22). -/
inductive Reg where
  | id
  | ctrl
  | cmd
  | status
  | config
  | dataLen
  | ecLen
  | gfResult
  | matInfo
  | placed
  | errInfo
  deriving DecidableEq, Repr

/-- The offset of a register (10_state.md R22). -/
def Reg.offset : Reg → Offset
  | .id => 0x000#17
  | .ctrl => 0x004#17
  | .cmd => 0x008#17
  | .status => 0x00C#17
  | .config => 0x010#17
  | .dataLen => 0x014#17
  | .ecLen => 0x018#17
  | .gfResult => 0x01C#17
  | .matInfo => 0x020#17
  | .placed => 0x024#17
  | .errInfo => 0x028#17

/-- One line of a host script (30_encoding.md R95, R96). `poll` is a loop whose number of turns is not fixed
(70_reset_and_hazards.md R271): `busyReads` of its reads come before the engine's turn (log 18). -/
inductive Line where
  | wr (reg : Reg) (v : Word)
  | rd (reg : Reg)
  | wrb (i v : Nat)
  | wrw (i : Nat) (v : Word)
  | rdb (i : Nat)
  | rdw (i : Nat)
  | rdm (r c : Nat)
  | cmd (i : Instr)
  | poll (busyReads : Nat)
  | run (i : Instr) (busyReads : Nat)
  | clr
  | cfg (v ecl mask : Nat)
  | lens (d e : Nat)
  deriving DecidableEq, Repr

/-- The lines that count as well-formed. 30_encoding.md R95 gives the index of CW its range (10_state.md R41), `wrw` the
bound `i mod 4 = 0`, and `wrb` an 8-bit immediate. DESIGN CHOICE (log 20): that `rdw` needs `i mod 4 = 0` too, that the row
and the column of `rdm` are below 256, and that the arguments of `cfg` and `lens` fit their fields; the spec sets no such
bounds. -/
def Line.wellFormed : Line → Bool
  | .wr _ _ | .rd _ | .poll _ | .clr => true
  | .wrb i v => decide (i < Config.cwMax) && decide (v < 256)
  | .rdb i => decide (i < Config.cwMax)
  | .wrw i _ | .rdw i => decide (i < Config.cwMax) && decide (i % 4 = 0)
  | .rdm r c => decide (r < 256) && decide (c < 256)
  | .cmd i | .run i _ => i.wellFormed
  | .cfg v ecl mask => decide (v < 32) && decide (ecl < 4) && decide (mask < 8)
  | .lens d e => decide (d < 8192) && decide (e < 256)

/-- `poll`: reads of STATUS before the completion, the engine's turn, and the read that ends the loop (R96; log 18). -/
def pollEvents (busyReads : Nat) : List Event :=
  List.replicate busyReads (.read Reg.status.offset .word) ++ [.engine, .read Reg.status.offset .word]

/-- The bus accesses of a line (30_encoding.md R95, R96). -/
def Line.events : Line → List Event
  | .wr reg v => [.write reg.offset .word v]
  | .rd reg => [.read reg.offset .word]
  | .wrb i v => [.write (BitVec.ofNat 17 (0x1000 + i)) .byte (BitVec.ofNat 32 v)]
  | .wrw i v => [.write (BitVec.ofNat 17 (0x1000 + i)) .word v]
  | .rdb i => [.read (BitVec.ofNat 17 (0x1000 + i)) .byte]
  | .rdw i => [.read (BitVec.ofNat 17 (0x1000 + i)) .word]
  | .rdm r c => [.read (BitVec.ofNat 17 (0x10000 + 256 * r + c)) .byte]
  | .cmd i => [.write Reg.cmd.offset .word (encode i)]
  | .poll busyReads => pollEvents busyReads
  | .run i busyReads => .write Reg.cmd.offset .word (encode i) :: pollEvents busyReads
  | .clr => [.write Reg.status.offset .word 0x0000003E#32]
  | .cfg v ecl mask => [.write Reg.config.offset .word (BitVec.ofNat 32 (mask * 4096 + ecl * 256 + v))]
  | .lens d e =>
    [.write Reg.dataLen.offset .word (BitVec.ofNat 32 d), .write Reg.ecLen.offset .word (BitVec.ofNat 32 e)]

/-- The bus accesses of a script, line by line. -/
def scriptEvents (script : List Line) : List Event := script.flatMap Line.events

end Sys2Proof.Machine
end

