-- ==== Sys2Proof/Safety.lean ====
section
/-! DEFINITION. What counts as a legal state and a safe run: the invariant that reset establishes and every step keeps,
and the absence of a stop (60_exceptions.md R230: no bus fault, no trap, no halt, no stuck state). -/

namespace Sys2Proof.Machine

/-- MAT_INFO is one of the values that reset and MAT_INIT leave: no matrix, or a legal version with its size
(10_state.md R35, R44). -/
def geometryLegal (s : State) : Bool :=
  (decide (s.matVersion = 0) && decide (s.matSize = 0))
    || (versionLegal s.matVersion && decide (s.matSize.toNat = sizeOf s.matVersion))

/-- The latch holds a command that passed the checks of its issue (40_command_control.md R110, R115). -/
def latchRunnable (s : State) : Bool :=
  match decode s.latch.word with
  | .error _ => false
  | .ok i =>
    (!needsVersion i || versionLegal s.latch.version)
      && (!needsMatrix i || decide (s.matVersion ≠ 0))
      && (!needsBuffer i || lengthsFit s.latch.dlen s.latch.elen)

/-- Every UNSET cell has val 0 (10_state.md R43). -/
def unsetLight (m : Matrix) : Prop := ∀ r c, (loadCell m r c).kind = .unset → (loadCell m r c).val = false

/-- The invariant of the machine. -/
structure Inv (s : State) : Prop where
  /-- The codeword buffer is in canonical form and within `CW[0..4095]` (10_state.md R41). -/
  cw : cwWf s.cw
  /-- The matrix memory is in canonical form and within its 133 × 133 cells (10_state.md R42). -/
  mat : matWf s.mat
  /-- An UNSET cell is light (10_state.md R43). -/
  light : unsetLight s.mat
  /-- MAT_INFO describes one matrix or none (10_state.md R35). -/
  geometry : geometryLegal s = true
  /-- With ERR = 0 no code and no information are recorded (10_state.md R26, R37). -/
  noError : s.err = false → s.errCode = .none ∧ s.errInfo = 0
  /-- With ERR = 1 a code is recorded (60_exceptions.md R232). -/
  hasError : s.err = true → s.errCode ≠ .none
  /-- BUSY and DONE are never both 1 (40_command_control.md R112, R114). -/
  busyNotDone : s.busy = true → s.done = false
  /-- A running command passed its checks (40_command_control.md R115). -/
  running : s.busy = true → latchRunnable s = true

/-- The step from this state is no stop. -/
def Runs (s : State) : Prop := ∃ t, step s = .next t

end Sys2Proof.Machine
end

