-- ==== Sys2Proof/Certificates/Slice0/Obligations.lean ====
section
/-! DEFINITION. The statements for the provers. A record equation `t = { s with … }` states the frame of an instruction:
every field of State that is not named keeps its value, the two memories included. -/

namespace Sys2Proof.Claims

open Sys2Proof.Machine

/-- `k` steps from a state, as long as no step stops. -/
def run : Nat → State → Host.Outcome State Fault Refusal
  | 0, s => .next s
  | k + 1, s =>
    match step s with
    | .next t => run k t
    | .fault r => .fault r
    | .refused r => .refused r

/-- Multiplication by `x` modulo `x^8 + x^4 + x^3 + x^2 + 1` (41_gf_rs.md R130). -/
def timesX (a : Byte) : Byte := if a.getLsbD 7 then (a <<< 1) ^^^ 0x1D#8 else a <<< 1

/-- Multiplication by `x^k`. -/
def timesXPow : Nat → Byte → Byte
  | 0, a => a
  | k + 1, a => timesX (timesXPow k a)

/-- The product of two bytes as polynomials over GF(2), modulo 0x11D (41_gf_rs.md R130): the sum of `a·x^k` over the bits
`k` of `b`. -/
def polyProduct (a b : Byte) : Byte :=
  (List.range 8).foldl (fun acc k => if b.getLsbD k then acc ^^^ timesXPow k a else acc) 0

/-- The value of a polynomial, highest degree first, at a point of GF(256). -/
def evalPoly (p : List Byte) (x : Byte) : Byte := p.foldl (fun acc c => gfMul acc x ^^^ c) 0

/-- The position of a cell in a finder pattern, counted from the pattern's origin (42_matrix.md R162). -/
def inFinder (n r c : Nat) : Option (Nat × Nat) :=
  if r < 7 ∧ c < 7 then some (r, c)
  else if r < 7 ∧ n - 7 ≤ c then some (r, c - (n - 7))
  else if n - 7 ≤ r ∧ c < 7 then some (r - (n - 7), c)
  else none

/-- A finder pattern or its separator covers the cell (42_matrix.md R163). -/
def inFinderZone (n r c : Nat) : Bool :=
  (decide (r < 8) && decide (c < 8)) || (decide (r < 8) && decide (n - 8 ≤ c)) || (decide (n - 8 ≤ r) && decide (c < 8))

/-- The alignment centres as the spec prints them, the row of version `v` at `v - 2` (42_matrix.md R165). -/
def centreRows : List (List Nat) :=
  [[6, 18], [6, 22], [6, 26], [6, 30]]
  ++ [[6, 34], [6, 22, 38], [6, 24, 42], [6, 26, 46]]
  ++ [[6, 28, 50], [6, 30, 54], [6, 32, 58], [6, 34, 62]]
  ++ [[6, 26, 46, 66], [6, 28, 49, 70], [6, 28, 51, 74], [6, 30, 54, 78]]
  ++ [[6, 32, 57, 82], [6, 32, 59, 86], [6, 34, 62, 90], [6, 28, 50, 72, 94]]
  ++ [[6, 29, 52, 75, 98], [6, 30, 54, 78, 102], [6, 31, 56, 81, 106], [6, 32, 58, 84, 110]]
  ++ [[6, 33, 60, 87, 114], [6, 34, 62, 90, 118], [6, 30, 53, 76, 99, 122], [6, 30, 54, 78, 102, 126]]

/-- The printed alignment centres of version `v`. -/
def printedCentres (v : Nat) : List Nat := centreRows.getD (v - 2) []

/-- The offsets from their centres of the alignment patterns that cover the cell (42_matrix.md R166). -/
def alignmentHits (v n r c : Nat) : List (Nat × Nat) :=
  (printedCentres v).flatMap fun a => ((printedCentres v).filter fun b =>
    decide ((a, b) ∉ [(6, 6), (6, n - 7), (n - 7, 6)]) && decide (gap r a ≤ 2) && decide (gap c b ≤ 2)).map
      fun b => (gap r a, gap c b)

/-- A cell of the format strips (42_matrix.md R168, 43_stamp.md R202). -/
def inFormat (n r c : Nat) : Bool :=
  (decide (c = 8) && (decide (r ≤ 5) || decide (r = 7) || decide (r = 8) || decide (n - 7 ≤ r)))
    || (decide (r = 8) && (decide (c ≤ 5) || decide (c = 7) || decide (n - 8 ≤ c)))

/-- A cell of the two 6 × 3 version blocks (42_matrix.md R169). -/
def inVersion (n r c : Nat) : Bool :=
  (decide (r < 6) && decide (n - 11 ≤ c) && decide (c < n - 8))
    || (decide (c < 6) && decide (n - 11 ≤ r) && decide (r < n - 8))

/-- The cell of the square after MAT_INIT, read off the rules from the last step to the first (42_matrix.md R160 to
R170). -/
def patternCell (v r c : Nat) : MatCell :=
  let n := 4 * v + 17
  if r = n - 8 ∧ c = 8 then ⟨.function, true⟩
  else if 7 ≤ v ∧ inVersion n r c = true then ⟨.reserved, false⟩
  else if inFormat n r c = true then ⟨.reserved, false⟩
  else if 1 < v ∧ alignmentHits v n r c ≠ [] then
    ⟨.function, (alignmentHits v n r c).all fun d => decide (max d.1 d.2 ≠ 1)⟩
  else if r = 6 ∧ 8 ≤ c ∧ c ≤ n - 9 then ⟨.function, decide (c % 2 = 0)⟩
  else if c = 6 ∧ 8 ≤ r ∧ r ≤ n - 9 then ⟨.function, decide (r % 2 = 0)⟩
  else
    match inFinder n r c with
    | some d => ⟨.function, decide (max (gap d.1 3) (gap d.2 3) ≠ 2)⟩
    | none => if inFinderZone n r c = true then ⟨.function, false⟩ else MatCell.blank

/-- How many columns of the zigzag lie right of column `c`: column 6 is not one of them (42_matrix.md R175). -/
def columnsRightOf (n c : Nat) : Nat := if 6 < c then n - 1 - c else n - 2 - c

/-- The place of a cell outside column 6 in the zigzag: pair `k` of columns is the `k`-th from the right and its scan runs
upward when `k` is even; within a row the right column comes first (42_matrix.md R175). -/
def zigzagPlace (n r c : Nat) : Nat :=
  let k := columnsRightOf n c / 2
  let rowsBefore := if k % 2 = 0 then n - 1 - r else r
  2 * n * k + 2 * rowsBefore + columnsRightOf n c % 2

/-- The free cells of the matrix in the order the zigzag visits them (42_matrix.md R177). -/
def freeCells (s : State) : List (Nat × Nat) :=
  (zigzag s.matSize.toNat).filter fun p => decide ((loadCell s.mat p.1 p.2).kind = .unset)

/-- A matrix exists (10_state.md R44): the check of PLACE, MASK and the stamps at issue, on a legal MAT_INFO. -/
def hasMatrix (s : State) : Prop := s.matVersion ≠ 0 ∧ geometryLegal s = true

/-- The host write of a command word to CMD. -/
def cmdWrite (w : Word) : Event := .write 0x008#17 .word w

/-- The width and alignment rule in plain numbers (20_memory.md R65). -/
def legalAccess (off : Offset) (w : Width) : Prop :=
  if off.toNat < 0x1000 then w = .word ∧ off.toNat % 4 = 0
  else if off.toNat < 0x2000 ∨ 0x10000 ≤ off.toNat then off.toNat % w.bytes = 0
  else True

end Sys2Proof.Claims

open Sys2Proof Sys2Proof.Machine Sys2Proof.Claims

/-! ## Encoding -/

/-- 30_encoding.md R90 to R94: decoding the word of a command gives the command back, and a word that decodes to a
command is that command's word, so that no reserved bit is ignored. -/
def Obligations.DecodeAndEncodeAgree : Prop :=
  (∀ i : Instr, decode (encode i) = .ok i) ∧ ∀ (w : Word) (i : Instr), decode w = .ok i → encode i = w

/-- 30_encoding.md R93: exactly these words are illegal, and an idle block records ILLEGAL_CMD for one, changing nothing
else. -/
def Obligations.IllegalWordsAreTheReservedEncodings : Prop :=
  ∀ w : Word,
    ((∃ e, decode w = .error e) ↔
      (0x0A ≤ (w.extractLsb' 0 8).toNat ∨
        ((w.extractLsb' 0 8).toNat = 0x01 ∧ w.extractLsb' 24 8 ≠ 0#8) ∨
        (((w.extractLsb' 0 8).toNat = 0x00 ∨
            (0x02 ≤ (w.extractLsb' 0 8).toNat ∧ (w.extractLsb' 0 8).toNat ≤ 0x09)) ∧
          w.extractLsb' 8 24 ≠ 0#24))) ∧
    ∀ s : State, s.busy = false → (∃ e, decode w = .error e) → issue w s = raiseError .illegalCmd w s

/-- 30_encoding.md R91: words written out from the opcode map decode to their commands. -/
def Obligations.WordsOfTheOpcodeMapDecode : Prop :=
  decode 0x00000000#32 = .ok .nop ∧ decode 0x00CA5301#32 = .ok (.gfMul 0x53#8 0xCA#8) ∧
  decode 0x00000002#32 = .ok .rsGen ∧ decode 0x00000003#32 = .ok .matInit ∧ decode 0x00000004#32 = .ok .place ∧
  decode 0x00000005#32 = .ok .mask ∧ decode 0x00000006#32 = .ok .stampFmt ∧ decode 0x00000007#32 = .ok .stampVer ∧
  decode 0x00000008#32 = .ok .build ∧ decode 0x00000009#32 = .ok .encode ∧
  decode 0x0000000A#32 = .error .reservedOpcode ∧ decode 0x00000102#32 = .error .reservedBits ∧
  decode 0x01018E01#32 = .error .reservedBits

/-! ## The step -/

/-- 40_command_control.md R114: at a turn of the engine with BUSY = 1 the step is `exec` of the latched command. -/
def Obligations.EngineTurnRunsTheLatchedCommand : Prop :=
  ∀ (s : State) (i : Instr), s.busy = true → decode s.latch.word = .ok i →
    (s.inbox = [] → step s = exec i s) ∧
    ∀ rest, s.inbox = .engine :: rest → step s = exec i { s with inbox := rest }

/-- 60_exceptions.md R236 and 40_command_control.md R114: a step serves one host access or one reset; while BUSY = 0 the
engine has no step. -/
def Obligations.StepServesOneEvent : Prop :=
  ∀ (s : State) (rest : List Event),
    (∀ off w, s.inbox = .read off w :: rest → step s = .next (hostRead off w { s with inbox := rest })) ∧
    (∀ off w v, s.inbox = .write off w v :: rest → step s = .next (hostWrite off w v { s with inbox := rest })) ∧
    (s.inbox = .reset :: rest → step s = .next (applyReset { s with inbox := rest })) ∧
    (s.busy = false → s.inbox = .engine :: rest → step s = .next { s with inbox := rest }) ∧
    (s.busy = false → s.inbox = [] → step s = .next s)

/-- The model's choice (log 1): a fetched word is accepted into the latch and is the next thing that runs. -/
def Obligations.FetchedWordRunsNext : Prop :=
  ∀ (s : State) (w : Nat) (i : Instr), w < 2 ^ 32 → decode (BitVec.ofNat 32 w) = .ok i →
    step (s.withFetchWord 32 w) = exec i (accept (BitVec.ofNat 32 w) s)

/-- 60_exceptions.md R230: from a legal state no step is a stop. -/
def Obligations.NoStepStops : Prop := ∀ s : State, Inv s → Runs s

/-- Reset leaves a legal state (10_state.md R52). That its UNSET cells are light rests on the model's choice of M after reset
(log 7), which 70_reset_and_hazards.md R263 leaves to a model. -/
def Obligations.ResetIsLegal : Prop := Inv State.reset

/-- Every step from a legal state leads to a legal state. After a step that serves a reset (70_reset_and_hazards.md R260)
that UNSET cells are light rests on the model's choice of M after reset (log 7; R263). -/
def Obligations.EveryStepKeepsTheStateLegal : Prop := ∀ s t : State, Inv s → step s = .next t → Inv t

/-- 70_reset_and_hazards.md R271: a running command completes after finitely many steps, at least one, unless reset
comes first; its completion clears BUSY and sets DONE. -/
def Obligations.RunningCommandCompletes : Prop :=
  ∀ s : State, Inv s → s.busy = true → Event.reset ∉ s.inbox →
    ∃ k t, 1 ≤ k ∧ k ≤ s.inbox.length + 1 ∧ run k s = .next t ∧ t.busy = false ∧ t.done = true

/-! ## Issue, acceptance, completion, errors -/

/-- 40_command_control.md R110: a 4-byte write to CMD issues the word; the checks, in order, stop at the first that
applies; the sum of the lengths does not wrap. -/
def Obligations.IssueChecksInOrder : Prop :=
  ∀ (w : Word) (s : State),
    hostWrite 0x008#17 .word w s = issue w s ∧
    (s.busy = true → issue w s = raiseError .cmdWhileBusy w s) ∧
    (s.busy = false → ∀ e, decode w = .error e → issue w s = raiseError .illegalCmd w s) ∧
    (s.busy = false → ∀ i, decode w = .ok i →
      let badVersion := i ∈ [Instr.matInit, .build, .encode] ∧ ¬ (1 ≤ s.version.toNat ∧ s.version.toNat ≤ 29)
      let noMatrix := i ∈ [Instr.place, .mask, .stampFmt, .stampVer] ∧ s.matVersion = 0#5
      let overflow := i ∈ [Instr.rsGen, .place, .build, .encode] ∧ 4096 < s.dataLen.toNat + s.ecLen.toNat
      (badVersion → issue w s = raiseError .badVersion w s) ∧
      (¬ badVersion → noMatrix → issue w s = raiseError .noMatrix w s) ∧
      (¬ badVersion → ¬ noMatrix → overflow → issue w s = raiseError .cwOverflow w s) ∧
      (¬ badVersion → ¬ noMatrix → ¬ overflow → issue w s = accept w s))

/-- 40_command_control.md R112: acceptance loads the latch, sets BUSY and clears DONE, and changes nothing else. -/
def Obligations.AcceptanceLoadsTheLatch : Prop :=
  ∀ (w : Word) (s : State),
    accept w s =
      { s with
        latch :=
          { word := w, version := s.version, ecl := s.ecl, mask := s.mask, dlen := s.dataLen, elen := s.ecLen }
        busy := true
        done := false }

/-- 40_command_control.md R113: a rejected command changes no state but the error record. -/
def Obligations.RejectedCommandChangesOnlyTheErrorRecord : Prop :=
  ∀ (w : Word) (s : State),
    issue w s = accept w s ∨
      ((∃ code, code ≠ ErrCode.none ∧ issue w s = raiseError code w s) ∧
        issue w s =
          { s with
            err := (issue w s).err
            errCode := (issue w s).errCode
            errInfo := (issue w s).errInfo
            errMult := (issue w s).errMult })

/-- 60_exceptions.md R232: the first error is recorded with its code and information; a later one only sets ERRMULT. -/
def Obligations.FirstErrorIsKept : Prop :=
  ∀ (code : ErrCode) (info : Word) (s : State),
    (s.err = false → raiseError code info s = { s with err := true, errCode := code, errInfo := info }) ∧
    (s.err = true → raiseError code info s = { s with errMult := true })

/-- 60_exceptions.md R235: a write to CMD of a wrong width is a BUS_ACCESS and issues no command. -/
def Obligations.NarrowCmdWriteIssuesNothing : Prop :=
  ∀ (w : Width) (v : Word) (s : State), w ≠ .word →
    hostWrite 0x008#17 w v s = raiseError .busAccess (accessInfo 0x008#17 w true) s

/-- 40_command_control.md R114, R115: every command completes: BUSY <- 0, DONE <- 1, no error, and none of the registers
the host writes, the latch or the parameter changes. -/
def Obligations.EveryCommandCompletesWithoutError : Prop :=
  ∀ (i : Instr) (s : State), ∃ t, exec i s = .next t ∧
    t = { s with
          busy := false
          done := true
          cw := t.cw
          mat := t.mat
          ecunsup := t.ecunsup
          trunc := t.trunc
          gfResult := t.gfResult
          matVersion := t.matVersion
          matSize := t.matSize
          placed := t.placed }

/-- 10_state.md R39, R40: a command works from its latch: writing CONFIG, DATA_LEN, EC_LEN or CTRL while it runs does not
change what it does. -/
def Obligations.CommandsReadOnlyTheirLatch : Prop :=
  ∀ (i : Instr) (s : State) (v : BitVec 5) (e : BitVec 2) (m : BitVec 3) (d : BitVec 13) (l : BitVec 8) (q : Bool),
    ∃ t, exec i s = .next t ∧
      exec i { s with version := v, ecl := e, mask := m, dataLen := d, ecLen := l, irqEn := q } =
        .next { t with version := v, ecl := e, mask := m, dataLen := d, ecLen := l, irqEn := q }

/-- 20_memory.md R66, R72 and 60_exceptions.md R232: no host access disturbs a running command: BUSY, the latch, both
memories and every result register stay. -/
def Obligations.HostAccessLeavesTheRunningCommandAlone : Prop :=
  ∀ (s t : State) (e : Event) (rest : List Event), s.busy = true → s.inbox = e :: rest → e ≠ .reset → e ≠ .engine →
    step s = .next t →
      t.busy = true ∧ t.latch = s.latch ∧ t.cw = s.cw ∧ t.mat = s.mat ∧ t.matVersion = s.matVersion ∧
      t.matSize = s.matSize ∧ t.gfResult = s.gfResult ∧ t.placed = s.placed ∧ t.resets = s.resets ∧ t.inbox = rest

/-! ## NOP and GF_MUL -/

/-- 40_command_control.md R120: NOP completes and has no other effect. -/
def Obligations.NopOnlyCompletes : Prop := ∀ s : State, exec .nop s = .next { s with busy := false, done := true }

/-- 41_gf_rs.md R135: GF_MUL writes the product of its operands to GF_RESULT, whose bits [31:8] read 0, and changes no
other register, flag or memory. -/
def Obligations.GfMulWritesTheProduct : Prop :=
  ∀ (a b : Byte) (s : State), ∃ t, exec (.gfMul a b) s = .next t ∧
    t = { s with gfResult := gfMul a b, busy := false, done := true } ∧
    hostRead 0x01C#17 .word t = { t with readData := some ((gfMul a b).setWidth 32) }

/-- 41_gf_rs.md R130, R134: the table product is the product of polynomials modulo 0x11D. -/
def Obligations.TableProductIsThePolynomialProduct : Prop := ∀ a b : Byte, gfMul a b = polyProduct a b

/-- 41_gf_rs.md R134: the laws of the field product, and its distribution over addition (R131). -/
def Obligations.FieldProductLaws : Prop :=
  (∀ a : Byte, gfMul a 0 = 0 ∧ gfMul 0 a = 0 ∧ gfMul a 1 = a ∧ gfMul 1 a = a) ∧
  (∀ a b : Byte, gfMul a b = gfMul b a) ∧
  (∀ a b c : Byte, gfMul (gfMul a b) c = gfMul a (gfMul b c)) ∧
  (∀ a b c : Byte, gfMul a (b ^^^ c) = gfMul a b ^^^ gfMul a c) ∧
  ∀ a b : Byte, gfMul a b = 0 → a = 0 ∨ b = 0

/-! ## RS_GEN -/

/-- 41_gf_rs.md R140 to R142: RS_GEN writes the remainder for a supported length, zeros with ECUNSUP for an unsupported
one, and nothing for length 0; every other byte of CW and every other field is unchanged. -/
def Obligations.RsGenWritesTheEcCodewords : Prop :=
  ∀ s : State, s.latch.dlen.toNat + s.latch.elen.toNat ≤ 4096 →
    let k := s.latch.dlen.toNat
    let n := s.latch.elen.toNat
    ∃ t, exec .rsGen s = .next t ∧
      t = { s with cw := t.cw, ecunsup := t.ecunsup, busy := false, done := true } ∧
      (∀ j, j < k ∨ k + n ≤ j → cwByte t j = cwByte s j) ∧
      (n = 0 → t.ecunsup = s.ecunsup) ∧
      (n ≠ 0 → n ∈ s.ecLengths →
        t.ecunsup = s.ecunsup ∧ ∀ i, i < n → cwByte t (k + i) = (rsRemainder n (dataCodewords s k)).getD i 0) ∧
      (n ≠ 0 → n ∉ s.ecLengths → t.ecunsup = true ∧ ∀ i, i < n → cwByte t (k + i) = 0)

/-- 41_gf_rs.md R144: after RS_GEN with a supported length the codewords, read as a polynomial, vanish at every root of the
generator polynomial. -/
def Obligations.CodewordsVanishAtTheRoots : Prop :=
  ∀ s : State, s.latch.dlen.toNat + s.latch.elen.toNat ≤ 4096 → s.latch.elen ≠ 0 →
    s.latch.elen.toNat ∈ s.ecLengths →
    ∃ t, exec .rsGen s = .next t ∧
      ∀ i, i < s.latch.elen.toNat →
        evalPoly (dataCodewords t (s.latch.dlen.toNat + s.latch.elen.toNat)) (expAt i) = 0

/-- 41_gf_rs.md R136: the generator polynomial of length `n` is monic of degree `n` and has the roots α^0 to α^(n-1). -/
def Obligations.GeneratorPolynomialHasItsRoots : Prop :=
  ∀ n, n ≤ 255 →
    (genPoly n).length = n + 1 ∧ (genPoly n).getD 0 0 = 1 ∧ ∀ i, i < n → evalPoly (genPoly n) (expAt i) = 0

/-- 41_gf_rs.md R138, R143: leading zero codewords do not change the remainder, and no data gives zeros. -/
def Obligations.LeadingZerosDoNotChangeTheRemainder : Prop :=
  ∀ (n : Nat) (data : List Byte) (z : Nat),
    rsRemainder n (List.replicate z 0 ++ data) = rsRemainder n data ∧ rsRemainder n [] = List.replicate n 0

/-! ## MAT_INIT -/

/-- 42_matrix.md R160, R170 and 10_state.md R44: MAT_INIT sets MAT_INFO and PLACED, leaves the cells outside the square and
everything else alone, and the dark module is (FUNCTION, 1). -/
def Obligations.MatInitSetsTheGeometry : Prop :=
  ∀ s : State, matWf s.mat → 1 ≤ s.latch.version.toNat → s.latch.version.toNat ≤ 29 →
    let n := 4 * s.latch.version.toNat + 17
    ∃ t, exec .matInit s = .next t ∧
      t = { s with
            mat := t.mat
            matVersion := s.latch.version
            matSize := t.matSize
            placed := 0
            busy := false
            done := true } ∧
      t.matSize.toNat = n ∧
      (∀ r c, ¬ (r < n ∧ c < n) → loadCell t.mat r c = loadCell s.mat r c) ∧
      loadCell t.mat (n - 8) 8 = ⟨.function, true⟩

/-- 42_matrix.md R160 to R170: after MAT_INIT every cell of the square is the one the rules give, the alignment patterns at
the printed centres (R165). -/
def Obligations.MatInitStampsTheSymbol : Prop :=
  ∀ s : State, matWf s.mat → 1 ≤ s.latch.version.toNat → s.latch.version.toNat ≤ 29 →
    ∃ t, exec .matInit s = .next t ∧
      ∀ r c, r < 4 * s.latch.version.toNat + 17 → c < 4 * s.latch.version.toNat + 17 →
        loadCell t.mat r c = patternCell s.latch.version.toNat r c

/-- 42_matrix.md R165: the alignment centres that the formula gives are the printed ones, for every version that has
alignment patterns. -/
def Obligations.AlignmentCentresAreThePrintedOnes : Prop :=
  ∀ v, 2 ≤ v → v ≤ 29 → alignmentCentres v (4 * v + 17) = printedCentres v

/-! ## PLACE -/

/-- 42_matrix.md R175: the zigzag of a legal size visits every cell outside column 6 exactly once, and no other, and each
at its place: column pairs from right to left, the scan upward first and then alternating, the right cell of a row
first. -/
def Obligations.ZigzagVisitsEachCellOnce : Prop :=
  ∀ v, 1 ≤ v → v ≤ 29 →
    (zigzag (4 * v + 17)).Nodup ∧
    (∀ r c, (r, c) ∈ zigzag (4 * v + 17) ↔ (r < 4 * v + 17 ∧ c < 4 * v + 17 ∧ c ≠ 6)) ∧
    ∀ r c, r < 4 * v + 17 → c < 4 * v + 17 → c ≠ 6 →
      (zigzag (4 * v + 17))[zigzagPlace (4 * v + 17) r c]? = some (r, c)

/-- 42_matrix.md R176, R177: PLACE fills the free cells in zigzag order with the stream bits, counts them, sets TRUNC when
bits are left over and never clears it, and changes no other cell and nothing else. -/
def Obligations.PlaceFillsTheFreeCellsInOrder : Prop :=
  ∀ s : State, hasMatrix s →
    let N := s.latch.dlen.toNat + s.latch.elen.toNat
    ∃ t, exec .place s = .next t ∧
      t = { s with mat := t.mat, placed := t.placed, trunc := t.trunc, busy := false, done := true } ∧
      (∀ (i : Nat) (p : Nat × Nat), (freeCells s)[i]? = some p →
        loadCell t.mat p.1 p.2 = ⟨.data, if i < 8 * N then (cwByte s (i / 8)).getLsbD (7 - i % 8) else false⟩) ∧
      (∀ r c, (r, c) ∉ freeCells s → loadCell t.mat r c = loadCell s.mat r c) ∧
      t.placed.toNat = (freeCells s).length ∧
      t.trunc = (s.trunc || decide ((freeCells s).length < 8 * N))

/-- 42_matrix.md R178: after a PLACE that follows MAT_INIT no cell of the square is UNSET, and every cell that was UNSET is
DATA. -/
def Obligations.PlaceLeavesNoCellUnset : Prop :=
  ∀ s : State, matWf s.mat → 1 ≤ s.latch.version.toNat → s.latch.version.toNat ≤ 29 →
    ∃ t, exec .matInit s = .next t ∧ ∀ l : Latch, ∃ u, exec .place { t with latch := l } = .next u ∧
      ∀ r c, r < u.matSize.toNat → c < u.matSize.toNat →
        (loadCell u.mat r c).kind ≠ .unset ∧
        ((loadCell t.mat r c).kind = .unset → (loadCell u.mat r c).kind = .data)

/-- 70_reset_and_hazards.md R277: a PLACE that finds no free cell places nothing, sets PLACED to 0, and sets TRUNC exactly
when the stream is not empty. -/
def Obligations.SecondPlacePlacesNothing : Prop :=
  ∀ s : State, freeCells s = [] →
    exec .place s =
      .next { s with
              placed := 0
              trunc := s.trunc || decide (0 < s.latch.dlen.toNat + s.latch.elen.toNat)
              busy := false
              done := true }

/-! ## MASK -/

/-- 42_matrix.md R181: the eight mask conditions. -/
def Obligations.MaskConditions : Prop :=
  ∀ r c : Nat,
    (maskCond 0 r c = true ↔ (r + c) % 2 = 0) ∧ (maskCond 1 r c = true ↔ r % 2 = 0) ∧
    (maskCond 2 r c = true ↔ c % 3 = 0) ∧ (maskCond 3 r c = true ↔ (r + c) % 3 = 0) ∧
    (maskCond 4 r c = true ↔ (r / 2 + c / 3) % 2 = 0) ∧ (maskCond 5 r c = true ↔ (r * c) % 2 + (r * c) % 3 = 0) ∧
    (maskCond 6 r c = true ↔ ((r * c) % 2 + (r * c) % 3) % 2 = 0) ∧
    (maskCond 7 r c = true ↔ ((r + c) % 2 + (r * c) % 3) % 2 = 0)

/-- 42_matrix.md R182, R183: MASK inverts exactly the DATA cells of the square that meet the condition of the latched mask
id, in their value only, and changes nothing else. -/
def Obligations.MaskInvertsTheDataCells : Prop :=
  ∀ s : State, hasMatrix s → ∃ t, exec .mask s = .next t ∧
    t = { s with mat := t.mat, busy := false, done := true } ∧
    ∀ r c, loadCell t.mat r c =
      if r < s.matSize.toNat ∧ c < s.matSize.toNat ∧ (loadCell s.mat r c).kind = .data ∧
          maskCond s.latch.mask r c = true then
        ⟨.data, !(loadCell s.mat r c).val⟩
      else loadCell s.mat r c

/-- 42_matrix.md R182: MASK twice with the same id restores the matrix memory. -/
def Obligations.MaskTwiceRestoresTheMatrix : Prop :=
  ∀ s t u : State, Inv s → hasMatrix s → exec .mask s = .next t → exec .mask t = .next u → u.mat = s.mat

/-- 70_reset_and_hazards.md R276: MASK and a stamp give the same cells in either order. -/
def Obligations.MaskAndStampsCommute : Prop :=
  ∀ (s : State) (id : BitVec 3) (e : BitVec 2) (m : BitVec 3) (r c : Nat), hasMatrix s →
    loadCell (stampFmtEffect e m (maskEffect id s)).mat r c = loadCell (maskEffect id (stampFmtEffect e m s)).mat r c ∧
    loadCell (stampVerEffect (maskEffect id s)).mat r c = loadCell (maskEffect id (stampVerEffect s)).mat r c

/-! ## The stamps -/

/-- 43_stamp.md R201, R202: STAMP_FMT writes bit `i` of the format word to its two cells, with kind RESERVED, and changes
no other cell and nothing else. -/
def Obligations.StampFmtWritesTheFormatCells : Prop :=
  ∀ s : State, hasMatrix s →
    let n := s.matSize.toNat
    let w := fmtWord s.latch.ecl s.latch.mask
    ∃ t, exec .stampFmt s = .next t ∧
      t = { s with mat := t.mat, busy := false, done := true } ∧
      (∀ i, i < 15 →
        loadCell t.mat (fmtCell1 i).1 (fmtCell1 i).2 = ⟨.reserved, w.getLsbD i⟩ ∧
        loadCell t.mat (fmtCell2 i n).1 (fmtCell2 i n).2 = ⟨.reserved, w.getLsbD i⟩) ∧
      ∀ r c, (∀ i, i < 15 → (r, c) ≠ fmtCell1 i ∧ (r, c) ≠ fmtCell2 i n) →
        loadCell t.mat r c = loadCell s.mat r c

/-- 43_stamp.md R206, R207: STAMP_VER writes bit `i` of the version word to its two cells for version 7 and up, with kind
RESERVED, and no cell below version 7; it changes no other cell and nothing else. -/
def Obligations.StampVerWritesTheVersionCells : Prop :=
  ∀ s : State, hasMatrix s →
    let n := s.matSize.toNat
    let v := s.matVersion.toNat
    ∃ t, exec .stampVer s = .next t ∧
      t = { s with mat := t.mat, busy := false, done := true } ∧
      (v < 7 → t.mat = s.mat) ∧
      (7 ≤ v → ∀ i, i < 18 →
        loadCell t.mat (i / 3) (n - 11 + i % 3) = ⟨.reserved, (verWord v).getLsbD i⟩ ∧
        loadCell t.mat (n - 11 + i % 3) (i / 3) = ⟨.reserved, (verWord v).getLsbD i⟩) ∧
      ∀ r c, (∀ i, i < 18 → (r, c) ≠ (i / 3, n - 11 + i % 3) ∧ (r, c) ≠ (n - 11 + i % 3, i / 3)) →
        loadCell t.mat r c = loadCell s.mat r c

/-! ## BUILD and ENCODE -/

/-- 44_composite.md R220: BUILD completes with the five effects one after the other, all operands from the one latch;
every field that no step writes is unchanged. -/
def Obligations.BuildChainsTheFiveSteps : Prop :=
  ∀ s : State, ∃ t, exec .build s = .next t ∧
    t = complete (stampVerEffect (stampFmtEffect s.latch.ecl s.latch.mask (maskEffect s.latch.mask
          (placeEffect (s.latch.dlen.toNat + s.latch.elen.toNat) (matInitEffect s.latch.version s))))) ∧
    t = { s with
          mat := t.mat
          matVersion := s.latch.version
          matSize := t.matSize
          placed := t.placed
          trunc := t.trunc
          busy := false
          done := true }

/-- 44_composite.md R222: ENCODE completes with the effect of RS_GEN and then the five of BUILD on the CW just written. -/
def Obligations.EncodeChainsRsGenAndBuild : Prop :=
  ∀ s : State, ∃ t, exec .encode s = .next t ∧
    t = complete (buildEffect s.latch (rsGenEffect s.latch.dlen.toNat s.latch.elen.toNat s)) ∧
    t = { s with
          cw := t.cw
          ecunsup := t.ecunsup
          mat := t.mat
          matVersion := s.latch.version
          matSize := t.matSize
          placed := t.placed
          trunc := t.trunc
          busy := false
          done := true }

/-- 44_composite.md R221: on an idle block with a legal version and lengths that fit, BUILD written to CMD and completed
gives the same state as MAT_INIT, PLACE, MASK, STAMP_FMT and STAMP_VER written and completed one after the other, but for
the word in the unreadable latch. -/
def Obligations.BuildEqualsItsFiveCommands : Prop :=
  ∀ s : State, s.busy = false → 1 ≤ s.version.toNat → s.version.toNat ≤ 29 →
    s.dataLen.toNat + s.ecLen.toNat ≤ 4096 →
    ∃ t u,
      run 2 { s with inbox := [cmdWrite 8, .engine] } = .next t ∧
      run 10 { s with
        inbox := [cmdWrite 3, .engine, cmdWrite 4, .engine, cmdWrite 5, .engine, cmdWrite 6, .engine, cmdWrite 7,
          .engine] } = .next u ∧
      t = { u with latch := { u.latch with word := 8 } }

/-- 44_composite.md R223: under the same conditions ENCODE gives the same state as RS_GEN and then BUILD, but for the word
in the unreadable latch; with an illegal version ENCODE leaves CW unchanged and records BAD_VERSION. -/
def Obligations.EncodeEqualsRsGenThenBuild : Prop :=
  ∀ s : State, s.busy = false →
    (1 ≤ s.version.toNat → s.version.toNat ≤ 29 → s.dataLen.toNat + s.ecLen.toNat ≤ 4096 →
      ∃ t u,
        run 2 { s with inbox := [cmdWrite 9, .engine] } = .next t ∧
        run 4 { s with inbox := [cmdWrite 2, .engine, cmdWrite 8, .engine] } = .next u ∧
        t = { u with latch := { u.latch with word := 9 } }) ∧
    (¬ (1 ≤ s.version.toNat ∧ s.version.toNat ≤ 29) →
      run 2 { s with inbox := [cmdWrite 9, .engine] } = .next (raiseError .badVersion 9 { s with inbox := [] }))

/-- 44_composite.md R220: BUILD does not read the previous matrix: two states that differ only in matrix memory, MAT_INFO
and PLACED give the same square, MAT_INFO, PLACED and TRUNC. -/
def Obligations.BuildDoesNotReadTheOldMatrix : Prop :=
  ∀ (s : State) (m : Matrix) (v : BitVec 5) (n : BitVec 8) (p : BitVec 16), matWf s.mat → matWf m →
    1 ≤ s.latch.version.toNat → s.latch.version.toNat ≤ 29 →
    ∃ t u, exec .build s = .next t ∧
      exec .build { s with mat := m, matVersion := v, matSize := n, placed := p } = .next u ∧
      u = { t with mat := u.mat } ∧
      ∀ r c, r < t.matSize.toNat → c < t.matSize.toNat → loadCell u.mat r c = loadCell t.mat r c

/-! ## Registers -/

/-- 10_state.md R27: a write of STATUS clears the flags written 1, ERRCODE and ERRINFO with ERR, leaves the others and works
while BUSY = 1; and when a completion follows in the same cycle its sets win: DONE ends 1, and ECUNSUP and TRUNC end 1
where the completion sets them (`u`, from flags that are 0), whatever the write cleared. -/
def Obligations.StatusWriteClears : Prop :=
  ∀ (w : Word) (s : State),
    hostWrite 0x00C#17 .word w s =
      { s with
        done := if w.getLsbD 1 = true then false else s.done
        err := if w.getLsbD 2 = true then false else s.err
        errCode := if w.getLsbD 2 = true then .none else s.errCode
        errInfo := if w.getLsbD 2 = true then 0 else s.errInfo
        ecunsup := if w.getLsbD 3 = true then false else s.ecunsup
        trunc := if w.getLsbD 4 = true then false else s.trunc
        errMult := if w.getLsbD 5 = true then false else s.errMult } ∧
    ∀ i : Instr, ∃ t u,
      exec i (hostWrite 0x00C#17 .word w s) = .next t ∧
      exec i { s with ecunsup := false, trunc := false } = .next u ∧
      t.done = true ∧
      t.ecunsup = ((s.ecunsup && !w.getLsbD 3) || u.ecunsup) ∧
      t.trunc = ((s.trunc && !w.getLsbD 4) || u.trunc)

/-- 10_state.md R22, R26: the fields of STATUS stand at their bits and every other bit reads 0. -/
def Obligations.StatusFieldsStandAtTheirBits : Prop :=
  ∀ s : State,
    hostRead 0x00C#17 .word s = { s with readData := some (statusWord s) } ∧
    (statusWord s).getLsbD 0 = s.busy ∧ (statusWord s).getLsbD 1 = s.done ∧ (statusWord s).getLsbD 2 = s.err ∧
    (statusWord s).getLsbD 3 = s.ecunsup ∧ (statusWord s).getLsbD 4 = s.trunc ∧
    (statusWord s).getLsbD 5 = s.errMult ∧ (statusWord s).extractLsb' 6 2 = 0#2 ∧
    (statusWord s).extractLsb' 8 8 = s.errCode.toByte ∧ (statusWord s).extractLsb' 16 16 = 0#16

/-- 10_state.md R22 to R37: what a read of each register returns, in any state, busy or not. -/
def Obligations.RegistersReadAsMapped : Prop :=
  ∀ s : State,
    hostRead 0x000#17 .word s = { s with readData := some 0x51520007#32 } ∧
    hostRead 0x004#17 .word s = { s with readData := some ((BitVec.ofBool s.irqEn).setWidth 32) } ∧
    hostRead 0x008#17 .word s = { s with readData := some 0#32 } ∧
    hostRead 0x010#17 .word s =
      { s with
        readData :=
          some ((s.mask.setWidth 32 <<< 12) ||| (s.ecl.setWidth 32 <<< 8) ||| s.version.setWidth 32) } ∧
    hostRead 0x014#17 .word s = { s with readData := some (s.dataLen.setWidth 32) } ∧
    hostRead 0x018#17 .word s = { s with readData := some (s.ecLen.setWidth 32) } ∧
    hostRead 0x01C#17 .word s = { s with readData := some (s.gfResult.setWidth 32) } ∧
    hostRead 0x020#17 .word s =
      { s with readData := some ((s.matSize.setWidth 32 <<< 16) ||| s.matVersion.setWidth 32) } ∧
    hostRead 0x024#17 .word s = { s with readData := some (s.placed.setWidth 32) } ∧
    hostRead 0x028#17 .word s = { s with readData := some s.errInfo }

/-- 10_state.md R38: writes to read-only registers and reserved offsets are ignored, reads of reserved offsets return 0,
and a write to a writable register changes only its listed fields. -/
def Obligations.OnlyListedFieldsAreWritten : Prop :=
  ∀ (off : Offset) (v : Word) (s : State),
    (off.toNat < 0x1000 → off.toNat % 4 = 0 → off.toNat ∉ [0x004, 0x008, 0x00C, 0x010, 0x014, 0x018] →
      hostWrite off .word v s = s) ∧
    (0x02C ≤ off.toNat → off.toNat < 0x1000 → off.toNat % 4 = 0 →
      hostRead off .word s = { s with readData := some 0 }) ∧
    hostWrite 0x004#17 .word v s = { s with irqEn := v.getLsbD 0 } ∧
    hostWrite 0x010#17 .word v s =
      { s with version := v.extractLsb' 0 5, ecl := v.extractLsb' 8 2, mask := v.extractLsb' 12 3 } ∧
    hostWrite 0x014#17 .word v s = { s with dataLen := v.extractLsb' 0 13 } ∧
    hostWrite 0x018#17 .word v s = { s with ecLen := v.extractLsb' 0 8 }

/-- 10_state.md R34, R44: GF_RESULT changes only by GF_MUL and reset, MAT_INFO only by MAT_INIT, BUILD, ENCODE and
reset. -/
def Obligations.ResultRegistersHaveOneWriter : Prop :=
  ∀ s t : State, step s = .next t → (∀ rest, s.inbox ≠ .reset :: rest) →
    (t.gfResult ≠ s.gfResult → s.busy = true ∧ ∃ a b, decode s.latch.word = .ok (.gfMul a b)) ∧
    (t.matVersion ≠ s.matVersion ∨ t.matSize ≠ s.matSize →
      s.busy = true ∧ ∃ i, decode s.latch.word = .ok i ∧ i ∈ [Instr.matInit, .build, .encode])

/-- 10_state.md R50: without a reset, ECUNSUP is set only by RS_GEN and ENCODE, TRUNC only by PLACE, BUILD and ENCODE, DONE
only by a completion, and each is cleared by nothing but the STATUS write (and DONE by acceptance). -/
def Obligations.FlagsHaveNoHiddenWriter : Prop :=
  ∀ s t : State, step s = .next t → (∀ rest, s.inbox ≠ .reset :: rest) →
    (s.ecunsup = false → t.ecunsup = true →
      s.busy = true ∧ ∃ i, decode s.latch.word = .ok i ∧ i ∈ [Instr.rsGen, .encode]) ∧
    (s.trunc = false → t.trunc = true →
      s.busy = true ∧ ∃ i, decode s.latch.word = .ok i ∧ i ∈ [Instr.place, .build, .encode]) ∧
    (s.done = false → t.done = true → s.busy = true ∧ t.busy = false) ∧
    (s.ecunsup = true ∧ t.ecunsup = false ∨ s.trunc = true ∧ t.trunc = false →
      ∃ w rest, s.inbox = .write 0x00C#17 .word w :: rest) ∧
    (s.done = true ∧ t.done = false →
      ∃ w rest, s.inbox = .write 0x00C#17 .word w :: rest ∨ (s.inbox = cmdWrite w :: rest ∧ t.busy = true))

/-! ## The window -/

/-- 20_memory.md R65: an access that breaks the width or alignment rule of its region is recorded and has no other effect,
a refused read returning 0; the reserved window reads 0 and ignores writes at any width and alignment, also where an
access runs past its end, which is the model's reading (log 19). -/
def Obligations.AccessRulesOfTheRegions : Prop :=
  ∀ (off : Offset) (w : Width) (v : Word) (s : State),
    (¬ legalAccess off w →
      hostWrite off w v s = raiseError .busAccess (accessInfo off w true) s ∧
      hostRead off w s = { raiseError .busAccess (accessInfo off w false) s with readData := some 0 }) ∧
    (0x2000 ≤ off.toNat → off.toNat < 0x10000 →
      hostWrite off w v s = s ∧ hostRead off w s = { s with readData := some 0 })

/-- 20_memory.md R66: while BUSY = 1 every access to the CW or M window is recorded and has no other effect; register
accesses are served. -/
def Obligations.WindowsAreClosedWhileBusy : Prop :=
  ∀ (off : Offset) (w : Width) (v : Word) (s : State), s.busy = true →
    (0x1000 ≤ off.toNat ∧ off.toNat < 0x2000 ∨ 0x10000 ≤ off.toNat →
      hostWrite off w v s = raiseError .busAccess (accessInfo off w true) s ∧
      hostRead off w s = { raiseError .busAccess (accessInfo off w false) s with readData := some 0 }) ∧
    (off.toNat < 0x1000 → off.toNat % 4 = 0 →
      hostWrite off .word v s = writeRegister off.toNat v s ∧
      hostRead off .word s = { s with readData := some (readRegister off.toNat s) })

/-- 20_memory.md R62, R64: an aligned write to the CW window of an idle block stores byte `k` of its value, bits [8k+7:8k],
in `CW[off - 0x1000 + k]`, changes no other byte and nothing else, and the same read returns the stored bytes. -/
def Obligations.CwWindowStoresAndReturnsBytes : Prop :=
  ∀ (off : Offset) (w : Width) (v : Word) (s : State), s.busy = false → 0x1000 ≤ off.toNat → off.toNat < 0x2000 →
    off.toNat % w.bytes = 0 →
    let t := hostWrite off w v s
    t = { s with cw := t.cw } ∧
    (∀ k, k < w.bytes → cwByte t (off.toNat - 0x1000 + k) = v.extractLsb' (8 * k) 8) ∧
    (∀ j, j < off.toNat - 0x1000 ∨ off.toNat - 0x1000 + w.bytes ≤ j → cwByte t j = cwByte s j) ∧
    hostRead off w t = { t with readData := some ((v.setWidth (8 * w.bytes)).setWidth 32) }

/-- 20_memory.md R62, R64: an aligned read of 1, 2 or 4 bytes of the CW or M window of an idle block returns the bytes it
covers, whatever wrote them, the lowest offset in bits [7:0], and changes nothing but the value read. That a narrow value
is held with zeros above it is the model's choice (log 4). -/
def Obligations.ReadsAreLittleEndian : Prop :=
  ∀ (s : State) (j r : Nat), s.busy = false →
    (j < 4096 →
      hostRead (BitVec.ofNat 17 (0x1000 + j)) .byte s = { s with readData := some (0#24 ++ cwByte s j) }) ∧
    (j < 2048 →
      hostRead (BitVec.ofNat 17 (0x1000 + 2 * j)) .half s =
        { s with readData := some (0#16 ++ cwByte s (2 * j + 1) ++ cwByte s (2 * j)) }) ∧
    (j < 1024 →
      hostRead (BitVec.ofNat 17 (0x1000 + 4 * j)) .word s =
        { s with
          readData :=
            some (cwByte s (4 * j + 3) ++ cwByte s (4 * j + 2) ++ cwByte s (4 * j + 1) ++ cwByte s (4 * j)) }) ∧
    (r < 256 → j < 256 →
      hostRead (BitVec.ofNat 17 (0x10000 + 256 * r + j)) .byte s =
        { s with readData := some (0#24 ++ matrixByte s r j) }) ∧
    (r < 256 → j < 128 →
      hostRead (BitVec.ofNat 17 (0x10000 + 256 * r + 2 * j)) .half s =
        { s with readData := some (0#16 ++ matrixByte s r (2 * j + 1) ++ matrixByte s r (2 * j)) }) ∧
    (r < 256 → j < 64 →
      hostRead (BitVec.ofNat 17 (0x10000 + 256 * r + 4 * j)) .word s =
        { s with
          readData :=
            some (matrixByte s r (4 * j + 3) ++ matrixByte s r (4 * j + 2) ++ matrixByte s r (4 * j + 1)
              ++ matrixByte s r (4 * j)) })

/-- 20_memory.md R63: a 1-byte read of the M window of an idle block returns the kind code and the value inside the current
square and 0 outside; writes to the M window are ignored and raise no error. -/
def Obligations.MatrixWindowShowsTheSquare : Prop :=
  ∀ (s : State) (r c : Nat) (off : Offset) (w : Width) (v : Word), s.busy = false →
    (r < 256 → c < 256 →
      hostRead (BitVec.ofNat 17 (0x10000 + 256 * r + c)) .byte s =
        { s with
          readData :=
            some (if r < s.matSize.toNat ∧ c < s.matSize.toNat then
                BitVec.ofNat 32 (2 * (loadCell s.mat r c).kind.code.toNat + (loadCell s.mat r c).val.toNat)
              else 0) }) ∧
    (0x10000 ≤ off.toNat → off.toNat % w.bytes = 0 → hostWrite off w v s = s)

/-- 60_exceptions.md R233: the fields of the access descriptor. -/
def Obligations.AccessDescriptorFields : Prop :=
  ∀ (off : Offset) (w : Width) (b : Bool),
    (accessInfo off w b).extractLsb' 0 17 = off ∧ (accessInfo off w b).extractLsb' 17 7 = 0#7 ∧
    (accessInfo off w b).extractLsb' 24 2 = w.code ∧ (accessInfo off w b).extractLsb' 26 5 = 0#5 ∧
    (accessInfo off w b).getLsbD 31 = b ∧ w.code ≠ 3#2 ∧
    accessInfo 0x00C#17 .byte false = 0x0000000C#32 ∧ accessInfo 0x1001#17 .half true = 0x81001001#32 ∧
    accessInfo 0x10000#17 .word false = 0x02010000#32

/-! ## Interrupt, reset, scripts -/

/-- 60_exceptions.md R240: the interrupt output, and that it follows acceptance, completion and error recording. -/
def Obligations.InterruptFollowsDoneAndErr : Prop :=
  ∀ s : State,
    (irq s = true ↔ s.irqEn = true ∧ (s.done = true ∨ s.err = true)) ∧
    (∀ w, irq (accept w s) = (s.irqEn && s.err)) ∧ irq (complete s) = s.irqEn ∧
    ∀ code info, irq (raiseError code info s) = s.irqEn

/-- 70_reset_and_hazards.md R261: what the registers read right after reset, and that the engine is idle. -/
def Obligations.RegistersAfterReset : Prop :=
  ∀ (s : State) (rest : List Event), s.inbox = .reset :: rest →
    ∃ t, step s = .next t ∧ t.busy = false ∧ irq t = false ∧ t.inbox = rest ∧
      readValue 0x000#17 .word t = 0x51520007#32 ∧ readValue 0x004#17 .word t = 0#32 ∧
      readValue 0x008#17 .word t = 0#32 ∧ readValue 0x00C#17 .word t = 0#32 ∧
      readValue 0x010#17 .word t = 0x00000001#32 ∧ readValue 0x014#17 .word t = 0#32 ∧
      readValue 0x018#17 .word t = 0#32 ∧ readValue 0x01C#17 .word t = 0#32 ∧
      readValue 0x020#17 .word t = 0#32 ∧ readValue 0x024#17 .word t = 0#32 ∧ readValue 0x028#17 .word t = 0#32

/-- 70_reset_and_hazards.md R260: reset during a command abandons it: the state after is the reset state, whatever the
block was doing, but for the parameter and the model's own fields. -/
def Obligations.ResetAbandonsTheRunningCommand : Prop :=
  ∀ (s : State) (rest : List Event), s.inbox = .reset :: rest →
    ∃ t, step s = .next t ∧
      { t with ecLengths := Config.defaultEcLengths, resets := 0, inbox := [], readData := none } = State.reset

/-- 30_encoding.md R95, R96: `cmd` of every command is one 4-byte write of the command's word to CMD, the opcode alone for
layout Z and `(b << 16) | (a << 8) | 0x01` for GF_MUL; `run` of a command that passes its checks on an idle block ends with
its effect complete and a STATUS read that shows BUSY = 0, however many busy reads come first. That the script line carries
their number, and the engine's turn, is the model's choice (log 18). -/
def Obligations.RunScriptLineCompletesTheCommand : Prop :=
  (∀ i : Instr, (Line.cmd i).events = [cmdWrite (encode i)]) ∧
  (∀ e ∈ [(Instr.nop, 0x00#32), (.rsGen, 0x02#32), (.matInit, 0x03#32), (.place, 0x04#32), (.mask, 0x05#32),
      (.stampFmt, 0x06#32), (.stampVer, 0x07#32), (.build, 0x08#32), (.encode, 0x09#32)],
    (Line.cmd e.1).events = [.write 0x008#17 .word e.2]) ∧
  (∀ a b : Byte, (Line.cmd (.gfMul a b)).events =
    [.write 0x008#17 .word ((b.setWidth 32 <<< 16) ||| (a.setWidth 32 <<< 8) ||| 1#32)]) ∧
  ∀ (s : State) (i : Instr) (k : Nat), s.busy = false → s.inbox = (Line.run i k).events → issueError i s = none →
    ∃ t u, exec i (accept (encode i) { s with inbox := [] }) = .next t ∧ run (k + 3) s = .next u ∧
      u = { t with readData := some (statusWord t) } ∧ (statusWord t).getLsbD 0 = false
end

