-- ==== Sys2Proof/Laws/Memory.lean ====
section
/-! SUPPORT. What the memory operations do: reading after writing, and that each keeps the canonical form. -/

namespace Sys2Proof.Machine

namespace Mem

variable {α : Type}

@[simp] theorem find_nil (k : Nat) : find k ([] : Mem α) = none := rfl

theorem find_cons (k a : Nat) (x : α) (m : Mem α) :
    find k ((a, x) :: m) = if k = a then some x else find k m := rfl

/-- Listing a value under a key changes what that key finds and no other. -/
theorem find_insert (k j : Nat) (x : α) (m : Mem α) :
    find j (insert k x m) = if j = k then some x else find j m := by
  induction m with
  | nil => simp [insert, find]
  | cons e m ih =>
    obtain ⟨a, y⟩ := e
    by_cases h1 : k < a
    · by_cases hj : j = k <;> simp [insert, find, h1, hj]
    · by_cases h2 : k = a
      · subst h2; by_cases hj : j = k <;> simp [insert, find, hj]
      · by_cases hj : j = k
        · subst hj; simp [insert, find, h1, h2, ih]
        · by_cases hja : j = a
          · subst hja; simp [insert, find, h1, h2, hj]
          · simp [insert, find, h1, h2, ih, hj, hja]

/-- Erasing a key leaves it without a value and every other key as it was. -/
theorem find_erase (k j : Nat) (m : Mem α) : find j (erase k m) = if j = k then none else find j m := by
  induction m with
  | nil => simp [erase]
  | cons e m ih =>
    obtain ⟨a, y⟩ := e
    simp only [erase] at ih
    by_cases hj : j = k
    · subst hj
      by_cases ha : a = j
      · subst ha; simpa [erase] using ih
      · have ha' : ¬ j = a := fun h => ha h.symm
        simpa [erase, ha, find, ha'] using ih
    · by_cases ha : a = k
      · subst ha; simpa [erase, find, hj] using ih
      · by_cases hja : j = a
        · subst hja; simp [erase, ha, find]
        · simpa [erase, ha, find, hja, hj] using ih

/-- Reading after writing: the written key reads as the value, every other key as before. -/
theorem load_store [DecidableEq α] (blank : Option α) (k j : Nat) (x : α) (m : Mem α) :
    load blank j (store blank k x m) = if j = k then some x else load blank j m := by
  by_cases hx : some x = blank
  · by_cases hj : j = k <;> simp [load, store, hx, find_erase, hj]
  · by_cases hj : j = k <;> simp [load, store, hx, find_insert, hj]

theorem mem_insert {k : Nat} {x : α} {m : Mem α} {e : Nat × α} (h : e ∈ insert k x m) : e = (k, x) ∨ e ∈ m := by
  induction m with
  | nil => simpa [insert] using h
  | cons f m ih =>
    obtain ⟨a, y⟩ := f
    simp only [insert] at h
    split at h
    · simpa using h
    · split at h
      · rcases List.mem_cons.1 h with h | h
        · exact .inl h
        · exact .inr (List.mem_cons_of_mem _ h)
      · rcases List.mem_cons.1 h with h | h
        · exact .inr (h ▸ List.mem_cons_self ..)
        · exact (ih h).imp_right (List.mem_cons_of_mem _)

theorem pairwise_insert {k : Nat} {x : α} {m : Mem α} (h : m.Pairwise (fun e f => e.1 < f.1)) :
    (insert k x m).Pairwise (fun e f => e.1 < f.1) := by
  induction m with
  | nil => simp [insert]
  | cons f m ih =>
    obtain ⟨a, y⟩ := f
    obtain ⟨ha, hm⟩ := List.pairwise_cons.1 h
    simp only [insert]
    split
    · rename_i hk
      refine List.pairwise_cons.2 ⟨fun e he => ?_, h⟩
      rcases List.mem_cons.1 he with rfl | he
      · exact hk
      · exact hk.trans (ha e he)
    · split
      · rename_i hk hka
        subst hka
        exact List.pairwise_cons.2 ⟨ha, hm⟩
      · rename_i hk hka
        refine List.pairwise_cons.2 ⟨fun e he => ?_, ih hm⟩
        rcases mem_insert he with rfl | he
        · show a < k
          omega
        · exact ha e he

/-- Writing keeps the canonical form. -/
theorem wf_store [DecidableEq α] {blank : Option α} {ex : Nat → Bool} {k : Nat} {x : α} {m : Mem α} (h : wf blank ex m)
    (hk : ex k = true) : wf blank ex (store blank k x m) := by
  by_cases hx : some x = blank
  · simp only [store, hx, if_true, erase]
    exact ⟨h.1.filter _, fun e he => h.2 e (List.mem_filter.1 he).1⟩
  · simp only [store, hx, if_false]
    refine ⟨pairwise_insert h.1, fun e he => ?_⟩
    rcases mem_insert he with rfl | he
    · exact ⟨hk, hx⟩
    · exact h.2 e he

/-- A filtered memory keeps the canonical form. -/
theorem wf_filter {blank : Option α} {ex : Nat → Bool} {m : Mem α} (p : Nat × α → Bool) (h : wf blank ex m) :
    wf blank ex (m.filter p) :=
  ⟨h.1.filter _, fun e he => h.2 e (List.mem_filter.1 he).1⟩

/-- A key finds only a value that is listed under it. -/
theorem mem_of_find {k : Nat} {x : α} {m : Mem α} (h : find k m = some x) : (k, x) ∈ m := by
  induction m with
  | nil => simp at h
  | cons e m ih =>
    obtain ⟨a, y⟩ := e
    rw [find_cons] at h
    split at h
    · rename_i hk
      subst hk
      simp only [Option.some.injEq] at h
      subst h
      exact List.mem_cons_self ..
    · exact List.mem_cons_of_mem _ (ih h)

/-- In a memory with rising keys a listed value is found. -/
theorem find_of_mem {k : Nat} {x : α} {m : Mem α} (hs : m.Pairwise (fun e f => e.1 < f.1)) (h : (k, x) ∈ m) :
    find k m = some x := by
  induction m with
  | nil => simp at h
  | cons e m ih =>
    obtain ⟨a, y⟩ := e
    obtain ⟨ha, hm⟩ := List.pairwise_cons.1 hs
    rcases List.mem_cons.1 h with h | h
    · cases h; simp [find_cons]
    · have : a < k := ha _ h
      rw [find_cons, if_neg (by omega), ih hm h]

end Mem

/-! ## The codeword buffer -/

theorem cwExists_iff (i : Nat) : cwExists i = true ↔ i < 4096 := by unfold cwExists; exact decide_eq_true_iff

theorem loadCw_storeCw (epoch : Nat) (m : Codewords) (i j : Nat) (b : Byte) :
    loadCw epoch (storeCw m i b) j = if j = i ∧ i < 4096 then b else loadCw epoch m j := by
  by_cases hi : i < 4096
  · have he : cwExists i = true := (cwExists_iff i).2 hi
    by_cases hj : j = i <;> simp [loadCw, storeCw, he, Mem.load_store, hj, hi]
  · have he : cwExists i = false := Bool.eq_false_iff.2 fun h => hi ((cwExists_iff i).1 h)
    simp [loadCw, storeCw, he, hi]

theorem cwWf_storeCw {m : Codewords} (h : cwWf m) (i : Nat) (b : Byte) : cwWf (storeCw m i b) := by
  unfold storeCw
  split
  · rename_i he
    exact Mem.wf_store h he
  · exact h

@[simp] theorem storeBytes_nil (m : Codewords) (i : Nat) : storeBytes m i [] = m := rfl

@[simp] theorem storeBytes_cons (m : Codewords) (i : Nat) (b : Byte) (bs : List Byte) :
    storeBytes m i (b :: bs) = storeBytes (storeCw m i b) (i + 1) bs := rfl

theorem cwWf_storeBytes (bs : List Byte) {m : Codewords} (h : cwWf m) (i : Nat) : cwWf (storeBytes m i bs) := by
  induction bs generalizing m i with
  | nil => exact h
  | cons b bs ih => exact ih (cwWf_storeCw h i b) (i + 1)

/-- Storing a list of bytes that fits the buffer: each byte of the range reads as stored, every other byte as before. -/
theorem loadCw_storeBytes (epoch : Nat) (bs : List Byte) (m : Codewords) (i j : Nat) (hfit : i + bs.length ≤ 4096) :
    loadCw epoch (storeBytes m i bs) j = if i ≤ j ∧ j < i + bs.length then bs.getD (j - i) 0 else loadCw epoch m j := by
  induction bs generalizing m i with
  | nil => simp only [storeBytes_nil, List.length_nil, Nat.add_zero]; rw [if_neg (by omega)]
  | cons b bs ih =>
    simp only [List.length_cons] at hfit ⊢
    rw [storeBytes_cons, ih _ _ (by omega), loadCw_storeCw]
    by_cases h0 : j = i
    · subst h0
      rw [if_neg (by omega), if_pos ⟨rfl, by omega⟩, if_pos ⟨le_refl _, by omega⟩]
      simp
    · by_cases h1 : i ≤ j ∧ j < i + (bs.length + 1)
      · rw [if_pos (by omega), if_pos h1, show j - i = (j - (i + 1)) + 1 by omega, List.getD_cons_succ]
      · rw [if_neg (by omega), if_neg h1, if_neg (by omega)]

/-! ## The matrix memory -/

theorem lineExists_iff (i : Nat) : lineExists i = true ↔ i < 133 := by unfold lineExists; exact decide_eq_true_iff

theorem loadRow_store (m : Matrix) (r r' : Nat) (row : Mem MatCell) :
    loadRow (Mem.store rowBlank r row m) r' = if r' = r then row else loadRow m r' := by
  by_cases h : r' = r <;> simp [loadRow, Mem.load_store, h]

/-- Reading a cell after writing one. -/
theorem loadCell_storeCell (m : Matrix) (r c r' c' : Nat) (x : MatCell) :
    loadCell (storeCell m r c x) r' c' =
      if r' = r ∧ c' = c ∧ r < 133 ∧ c < 133 then x else loadCell m r' c' := by
  by_cases hb : r < 133 ∧ c < 133
  · have he : (lineExists r && lineExists c) = true := by simp [lineExists_iff, hb.1, hb.2]
    simp only [storeCell, he, if_true, hb.1, hb.2, and_true]
    unfold loadCell
    rw [loadRow_store]
    by_cases hr : r' = r
    · subst hr
      rw [if_pos rfl, Mem.load_store]
      by_cases hc : c' = c <;> simp [hc]
    · simp [hr]
  · have he : (lineExists r && lineExists c) = false := by
      rw [Bool.eq_false_iff]; simpa [lineExists_iff] using hb
    rw [if_neg (by tauto)]
    simp [storeCell, he]

theorem matWf_row {m : Matrix} (h : matWf m) (r : Nat) : Mem.wf cellBlank lineExists (loadRow m r) := by
  unfold loadRow Mem.load
  cases hf : Mem.find r m with
  | none => exact ⟨List.Pairwise.nil, fun e he => absurd he (List.not_mem_nil)⟩
  | some row => exact h.2 _ (Mem.mem_of_find hf)

theorem mem_store {α : Type} [DecidableEq α] {blank : Option α} {k : Nat} {x : α} {m : Mem α} {e : Nat × α}
    (h : e ∈ Mem.store blank k x m) : e = (k, x) ∨ e ∈ m := by
  unfold Mem.store at h
  split at h
  · exact .inr (List.mem_filter.1 h).1
  · exact Mem.mem_insert h

theorem matWf_storeCell {m : Matrix} (h : matWf m) (r c : Nat) (x : MatCell) : matWf (storeCell m r c x) := by
  unfold storeCell
  split
  · rename_i hb
    obtain ⟨hr, hc⟩ := Bool.and_eq_true_iff.1 hb
    refine ⟨Mem.wf_store h.1 hr, fun e he => ?_⟩
    rcases mem_store he with rfl | he
    · exact Mem.wf_store (matWf_row h r) hc
    · exact h.2 e he
  · exact h

@[simp] theorem storeCells_nil (m : Matrix) : storeCells m [] = m := rfl

@[simp] theorem storeCells_cons (m : Matrix) (w : CellWrite) (ws : List CellWrite) :
    storeCells m (w :: ws) = storeCells (storeCell m w.1 w.2.1 w.2.2) ws := rfl

theorem storeCells_append (m : Matrix) (us ws : List CellWrite) :
    storeCells m (us ++ ws) = storeCells (storeCells m us) ws := by simp [storeCells]

theorem matWf_storeCells (ws : List CellWrite) {m : Matrix} (h : matWf m) : matWf (storeCells m ws) := by
  induction ws generalizing m with
  | nil => exact h
  | cons w ws ih => exact ih (matWf_storeCell h _ _ _)

/-- A cell that no write of the list names keeps its content. -/
theorem loadCell_storeCells_of_not_mem (ws : List CellWrite) (m : Matrix) (r c : Nat)
    (h : ∀ w ∈ ws, ¬ (w.1 = r ∧ w.2.1 = c)) : loadCell (storeCells m ws) r c = loadCell m r c := by
  induction ws generalizing m with
  | nil => rfl
  | cons w ws ih =>
    rw [storeCells_cons, ih _ fun v hv => h v (List.mem_cons_of_mem _ hv), loadCell_storeCell, if_neg]
    have := h w (List.mem_cons_self ..)
    intro hw
    exact this ⟨hw.1.symm, hw.2.1.symm⟩

/-- A cell that the list writes, always with one content, has that content afterwards. -/
theorem loadCell_storeCells_of_mem (ws : List CellWrite) (m : Matrix) (r c : Nat) (x : MatCell)
    (hr : r < 133) (hc : c < 133) (h : (r, c, x) ∈ ws) (hx : ∀ w ∈ ws, w.1 = r ∧ w.2.1 = c → w.2.2 = x) :
    loadCell (storeCells m ws) r c = x := by
  induction ws generalizing m with
  | nil => simp at h
  | cons w ws ih =>
    rw [storeCells_cons]
    by_cases hm : (r, c, x) ∈ ws
    · exact ih _ hm fun v hv => hx v (List.mem_cons_of_mem _ hv)
    · by_cases hn : ∃ v ∈ ws, v.1 = r ∧ v.2.1 = c
      · obtain ⟨v, hv, h1, h2⟩ := hn
        exact absurd (by
          have := hx v (List.mem_cons_of_mem _ hv) ⟨h1, h2⟩
          rw [← h1, ← h2, ← this]; exact hv) hm
      · rw [loadCell_storeCells_of_not_mem _ _ _ _ fun v hv hv' => hn ⟨v, hv, hv'⟩, loadCell_storeCell]
        rcases List.mem_cons.1 h with rfl | h
        · exact if_pos ⟨rfl, rfl, hr, hc⟩
        · exact absurd h hm

theorem clearRow_key {n : Nat} {e f : Nat × Mem MatCell} (h : clearRow n e = some f) : f.1 = e.1 := by
  unfold clearRow at h
  split at h
  · split at h
    · exact absurd h (by simp)
    · cases h; rfl
  · cases h; rfl

theorem loadRow_clearSquare (n : Nat) {m : Matrix} (h : matWf m) (r : Nat) :
    loadRow (clearSquare n m) r = if r < n then (loadRow m r).filter (fun x => decide (n ≤ x.1)) else loadRow m r := by
  have key : ∀ m : Matrix, m.Pairwise (fun e f => e.1 < f.1) →
      loadRow (clearSquare n m) r =
        if r < n then (loadRow m r).filter (fun x => decide (n ≤ x.1)) else loadRow m r := by
    intro m hs
    induction m with
    | nil => simp [clearSquare, loadRow, Mem.load, rowBlank]
    | cons e m ih =>
      obtain ⟨a, row⟩ := e
      obtain ⟨ha, hm⟩ := List.pairwise_cons.1 hs
      have ih' := ih hm
      by_cases hra : r = a
      · subst hra
        by_cases hr : r < n
        · by_cases hemp : (row.filter fun x => decide (n ≤ x.1)) = []
          · have hnone : Mem.find r (clearSquare n m) = none := by
              cases hf : Mem.find r (clearSquare n m) with
              | none => rfl
              | some y =>
                obtain ⟨f, hf', hc⟩ := List.mem_filterMap.1 (Mem.mem_of_find hf)
                have h1 := clearRow_key hc
                have h2 := ha f hf'
                simp only at h1 h2
                omega
            have hcl : clearSquare n ((r, row) :: m) = clearSquare n m := by
              simp [clearSquare, clearRow, hr, hemp]
            rw [hcl]
            simp [loadRow, Mem.load, Mem.find_cons, hnone, rowBlank, hr, hemp]
          · have hcl : clearSquare n ((r, row) :: m) =
                (r, row.filter fun x => decide (n ≤ x.1)) :: clearSquare n m := by
              simp [clearSquare, clearRow, hr, hemp]
            rw [hcl]
            simp [loadRow, Mem.load, Mem.find_cons, hr]
        · have hcl : clearSquare n ((r, row) :: m) = (r, row) :: clearSquare n m := by
            simp [clearSquare, clearRow, hr]
          rw [hcl]
          simp [loadRow, Mem.load, Mem.find_cons, hr]
      · have hcons : loadRow ((a, row) :: m) r = loadRow m r := by simp [loadRow, Mem.load, Mem.find_cons, hra]
        have hcl : loadRow (clearSquare n ((a, row) :: m)) r = loadRow (clearSquare n m) r := by
          cases hc : clearRow n (a, row) with
          | none => simp [clearSquare, hc]
          | some f =>
            have h1 : f.1 = a := clearRow_key hc
            obtain ⟨b, row'⟩ := f
            simp only at h1
            subst h1
            simp [clearSquare, hc, loadRow, Mem.load, Mem.find_cons, hra]
        rw [hcl, ih', hcons]
  exact key m h.1.1

theorem load_filter_cols (n c : Nat) (row : Mem MatCell) :
    Mem.load cellBlank c (row.filter fun x => decide (n ≤ x.1)) =
      if c < n then some MatCell.blank else Mem.load cellBlank c row := by
  have key : Mem.find c (row.filter fun x => decide (n ≤ x.1)) = if c < n then none else Mem.find c row := by
    induction row with
    | nil => simp
    | cons e row ih =>
      obtain ⟨a, x⟩ := e
      by_cases han : n ≤ a
      · by_cases hca : c = a
        · subst hca
          simp [han, Mem.find_cons, show ¬ c < n by omega]
        · simp [han, Mem.find_cons, hca, ih]
      · by_cases hca : c = a
        · subst hca
          have hcn : c < n := by omega
          simpa [han, Mem.find_cons, hcn] using ih
        · simp [han, Mem.find_cons, hca, ih]
  unfold Mem.load
  rw [key]
  by_cases hc : c < n <;> simp [hc, cellBlank]

/-- Clearing the square: its cells read as (UNSET, 0), every other cell as before. -/
theorem loadCell_clearSquare (n : Nat) {m : Matrix} (h : matWf m) (r c : Nat) :
    loadCell (clearSquare n m) r c = if r < n ∧ c < n then MatCell.blank else loadCell m r c := by
  unfold loadCell
  rw [loadRow_clearSquare n h]
  by_cases hr : r < n
  · rw [if_pos hr, load_filter_cols]
    by_cases hc : c < n <;> simp [hr, hc]
  · simp [hr]

theorem matWf_clearSquare (n : Nat) {m : Matrix} (h : matWf m) : matWf (clearSquare n m) := by
  have hsub : ∀ f ∈ clearSquare n m, lineExists f.1 = true ∧ some f.2 ≠ rowBlank
      ∧ Mem.wf cellBlank lineExists f.2 := by
    intro f hf
    obtain ⟨e, he, hc⟩ := List.mem_filterMap.1 hf
    unfold clearRow at hc
    split at hc
    · split at hc
      · exact absurd hc (by simp)
      · rename_i hne
        cases hc
        exact ⟨(h.1.2 e he).1, by simpa [rowBlank] using hne, Mem.wf_filter _ (h.2 e he)⟩
    · cases hc
      exact ⟨(h.1.2 _ he).1, (h.1.2 _ he).2, h.2 _ he⟩
  refine ⟨⟨?_, fun f hf => ⟨(hsub f hf).1, (hsub f hf).2.1⟩⟩, fun f hf => (hsub f hf).2.2⟩
  refine List.Pairwise.filterMap (clearRow n) (S := fun e f => e.1 < f.1) (fun a a' haa b hb b' hb' => ?_) h.1.1
  rw [clearRow_key hb, clearRow_key hb']
  exact haa

theorem mem_squareCells (n : Nat) (p : Nat × Nat) : p ∈ squareCells n ↔ p.1 < n ∧ p.2 < n := by
  obtain ⟨r, c⟩ := p
  simp [squareCells]

end Sys2Proof.Machine
end

