-- ==== Sys2Proof/Laws/State.lean ====
section
/-! SUPPORT. One lemma for each field under each update of the state: what acceptance, completion, error recording, the
STATUS write, reset and the commands' effects leave in it. -/

namespace Sys2Proof.Machine

/-! ### Acceptance (40_command_control.md R112) -/

@[simp] theorem accept_irqEn (w : Word) (s : State) : (accept w s).irqEn = s.irqEn := rfl
@[simp] theorem accept_busy (w : Word) (s : State) : (accept w s).busy = true := rfl
@[simp] theorem accept_done (w : Word) (s : State) : (accept w s).done = false := rfl
@[simp] theorem accept_err (w : Word) (s : State) : (accept w s).err = s.err := rfl
@[simp] theorem accept_ecunsup (w : Word) (s : State) : (accept w s).ecunsup = s.ecunsup := rfl
@[simp] theorem accept_trunc (w : Word) (s : State) : (accept w s).trunc = s.trunc := rfl
@[simp] theorem accept_errMult (w : Word) (s : State) : (accept w s).errMult = s.errMult := rfl
@[simp] theorem accept_errCode (w : Word) (s : State) : (accept w s).errCode = s.errCode := rfl
@[simp] theorem accept_version (w : Word) (s : State) : (accept w s).version = s.version := rfl
@[simp] theorem accept_ecl (w : Word) (s : State) : (accept w s).ecl = s.ecl := rfl
@[simp] theorem accept_mask (w : Word) (s : State) : (accept w s).mask = s.mask := rfl
@[simp] theorem accept_dataLen (w : Word) (s : State) : (accept w s).dataLen = s.dataLen := rfl
@[simp] theorem accept_ecLen (w : Word) (s : State) : (accept w s).ecLen = s.ecLen := rfl
@[simp] theorem accept_gfResult (w : Word) (s : State) : (accept w s).gfResult = s.gfResult := rfl
@[simp] theorem accept_matVersion (w : Word) (s : State) : (accept w s).matVersion = s.matVersion := rfl
@[simp] theorem accept_matSize (w : Word) (s : State) : (accept w s).matSize = s.matSize := rfl
@[simp] theorem accept_placed (w : Word) (s : State) : (accept w s).placed = s.placed := rfl
@[simp] theorem accept_errInfo (w : Word) (s : State) : (accept w s).errInfo = s.errInfo := rfl
@[simp] theorem accept_latch (w : Word) (s : State) :
    (accept w s).latch = ⟨w, s.version, s.ecl, s.mask, s.dataLen, s.ecLen⟩ := rfl
@[simp] theorem accept_cw (w : Word) (s : State) : (accept w s).cw = s.cw := rfl
@[simp] theorem accept_mat (w : Word) (s : State) : (accept w s).mat = s.mat := rfl
@[simp] theorem accept_ecLengths (w : Word) (s : State) : (accept w s).ecLengths = s.ecLengths := rfl
@[simp] theorem accept_resets (w : Word) (s : State) : (accept w s).resets = s.resets := rfl
@[simp] theorem accept_inbox (w : Word) (s : State) : (accept w s).inbox = s.inbox := rfl
@[simp] theorem accept_readData (w : Word) (s : State) : (accept w s).readData = s.readData := rfl

/-! ### Completion (40_command_control.md R114) -/

@[simp] theorem complete_irqEn (s : State) : (complete s).irqEn = s.irqEn := rfl
@[simp] theorem complete_busy (s : State) : (complete s).busy = false := rfl
@[simp] theorem complete_done (s : State) : (complete s).done = true := rfl
@[simp] theorem complete_err (s : State) : (complete s).err = s.err := rfl
@[simp] theorem complete_ecunsup (s : State) : (complete s).ecunsup = s.ecunsup := rfl
@[simp] theorem complete_trunc (s : State) : (complete s).trunc = s.trunc := rfl
@[simp] theorem complete_errMult (s : State) : (complete s).errMult = s.errMult := rfl
@[simp] theorem complete_errCode (s : State) : (complete s).errCode = s.errCode := rfl
@[simp] theorem complete_version (s : State) : (complete s).version = s.version := rfl
@[simp] theorem complete_ecl (s : State) : (complete s).ecl = s.ecl := rfl
@[simp] theorem complete_mask (s : State) : (complete s).mask = s.mask := rfl
@[simp] theorem complete_dataLen (s : State) : (complete s).dataLen = s.dataLen := rfl
@[simp] theorem complete_ecLen (s : State) : (complete s).ecLen = s.ecLen := rfl
@[simp] theorem complete_gfResult (s : State) : (complete s).gfResult = s.gfResult := rfl
@[simp] theorem complete_matVersion (s : State) : (complete s).matVersion = s.matVersion := rfl
@[simp] theorem complete_matSize (s : State) : (complete s).matSize = s.matSize := rfl
@[simp] theorem complete_placed (s : State) : (complete s).placed = s.placed := rfl
@[simp] theorem complete_errInfo (s : State) : (complete s).errInfo = s.errInfo := rfl
@[simp] theorem complete_latch (s : State) : (complete s).latch = s.latch := rfl
@[simp] theorem complete_cw (s : State) : (complete s).cw = s.cw := rfl
@[simp] theorem complete_mat (s : State) : (complete s).mat = s.mat := rfl
@[simp] theorem complete_ecLengths (s : State) : (complete s).ecLengths = s.ecLengths := rfl
@[simp] theorem complete_resets (s : State) : (complete s).resets = s.resets := rfl
@[simp] theorem complete_inbox (s : State) : (complete s).inbox = s.inbox := rfl
@[simp] theorem complete_readData (s : State) : (complete s).readData = s.readData := rfl

/-! ### Recording an error (60_exceptions.md R232) -/

@[simp] theorem raiseError_irqEn (code : ErrCode) (info : Word) (s : State) :
    (raiseError code info s).irqEn = s.irqEn := by
  unfold raiseError; split <;> simp [*]
@[simp] theorem raiseError_busy (code : ErrCode) (info : Word) (s : State) :
    (raiseError code info s).busy = s.busy := by
  unfold raiseError; split <;> simp [*]
@[simp] theorem raiseError_done (code : ErrCode) (info : Word) (s : State) :
    (raiseError code info s).done = s.done := by
  unfold raiseError; split <;> simp [*]
@[simp] theorem raiseError_err (code : ErrCode) (info : Word) (s : State) : (raiseError code info s).err = true := by
  unfold raiseError; split <;> simp [*]
@[simp] theorem raiseError_ecunsup (code : ErrCode) (info : Word) (s : State) :
    (raiseError code info s).ecunsup = s.ecunsup := by
  unfold raiseError; split <;> simp [*]
@[simp] theorem raiseError_trunc (code : ErrCode) (info : Word) (s : State) :
    (raiseError code info s).trunc = s.trunc := by
  unfold raiseError; split <;> simp [*]
@[simp] theorem raiseError_errMult (code : ErrCode) (info : Word) (s : State) :
    (raiseError code info s).errMult = (s.errMult || s.err) := by
  unfold raiseError; split <;> simp [*]
@[simp] theorem raiseError_errCode (code : ErrCode) (info : Word) (s : State) :
    (raiseError code info s).errCode = if s.err = true then s.errCode else code := by
  unfold raiseError; split <;> simp [*]
@[simp] theorem raiseError_version (code : ErrCode) (info : Word) (s : State) :
    (raiseError code info s).version = s.version := by
  unfold raiseError; split <;> simp [*]
@[simp] theorem raiseError_ecl (code : ErrCode) (info : Word) (s : State) : (raiseError code info s).ecl = s.ecl := by
  unfold raiseError; split <;> simp [*]
@[simp] theorem raiseError_mask (code : ErrCode) (info : Word) (s : State) :
    (raiseError code info s).mask = s.mask := by
  unfold raiseError; split <;> simp [*]
@[simp] theorem raiseError_dataLen (code : ErrCode) (info : Word) (s : State) :
    (raiseError code info s).dataLen = s.dataLen := by
  unfold raiseError; split <;> simp [*]
@[simp] theorem raiseError_ecLen (code : ErrCode) (info : Word) (s : State) :
    (raiseError code info s).ecLen = s.ecLen := by
  unfold raiseError; split <;> simp [*]
@[simp] theorem raiseError_gfResult (code : ErrCode) (info : Word) (s : State) :
    (raiseError code info s).gfResult = s.gfResult := by
  unfold raiseError; split <;> simp [*]
@[simp] theorem raiseError_matVersion (code : ErrCode) (info : Word) (s : State) :
    (raiseError code info s).matVersion = s.matVersion := by
  unfold raiseError; split <;> simp [*]
@[simp] theorem raiseError_matSize (code : ErrCode) (info : Word) (s : State) :
    (raiseError code info s).matSize = s.matSize := by
  unfold raiseError; split <;> simp [*]
@[simp] theorem raiseError_placed (code : ErrCode) (info : Word) (s : State) :
    (raiseError code info s).placed = s.placed := by
  unfold raiseError; split <;> simp [*]
@[simp] theorem raiseError_errInfo (code : ErrCode) (info : Word) (s : State) :
    (raiseError code info s).errInfo = if s.err = true then s.errInfo else info := by
  unfold raiseError; split <;> simp [*]
@[simp] theorem raiseError_latch (code : ErrCode) (info : Word) (s : State) :
    (raiseError code info s).latch = s.latch := by
  unfold raiseError; split <;> simp [*]
@[simp] theorem raiseError_cw (code : ErrCode) (info : Word) (s : State) : (raiseError code info s).cw = s.cw := by
  unfold raiseError; split <;> simp [*]
@[simp] theorem raiseError_mat (code : ErrCode) (info : Word) (s : State) : (raiseError code info s).mat = s.mat := by
  unfold raiseError; split <;> simp [*]
@[simp] theorem raiseError_ecLengths (code : ErrCode) (info : Word) (s : State) :
    (raiseError code info s).ecLengths = s.ecLengths := by
  unfold raiseError; split <;> simp [*]
@[simp] theorem raiseError_resets (code : ErrCode) (info : Word) (s : State) :
    (raiseError code info s).resets = s.resets := by
  unfold raiseError; split <;> simp [*]
@[simp] theorem raiseError_inbox (code : ErrCode) (info : Word) (s : State) :
    (raiseError code info s).inbox = s.inbox := by
  unfold raiseError; split <;> simp [*]
@[simp] theorem raiseError_readData (code : ErrCode) (info : Word) (s : State) :
    (raiseError code info s).readData = s.readData := by
  unfold raiseError; split <;> simp [*]

/-! ### The STATUS write (10_state.md R27) -/

@[simp] theorem writeStatus_irqEn (w : Word) (s : State) : (writeStatus w s).irqEn = s.irqEn := rfl
@[simp] theorem writeStatus_busy (w : Word) (s : State) : (writeStatus w s).busy = s.busy := rfl
@[simp] theorem writeStatus_done (w : Word) (s : State) : (writeStatus w s).done = (s.done && !w.getLsbD 1) := rfl
@[simp] theorem writeStatus_err (w : Word) (s : State) : (writeStatus w s).err = (s.err && !w.getLsbD 2) := rfl
@[simp] theorem writeStatus_ecunsup (w : Word) (s : State) :
    (writeStatus w s).ecunsup = (s.ecunsup && !w.getLsbD 3) := rfl
@[simp] theorem writeStatus_trunc (w : Word) (s : State) : (writeStatus w s).trunc = (s.trunc && !w.getLsbD 4) := rfl
@[simp] theorem writeStatus_errMult (w : Word) (s : State) :
    (writeStatus w s).errMult = (s.errMult && !w.getLsbD 5) := rfl
@[simp] theorem writeStatus_errCode (w : Word) (s : State) :
    (writeStatus w s).errCode = if w.getLsbD 2 = true then .none else s.errCode := rfl
@[simp] theorem writeStatus_version (w : Word) (s : State) : (writeStatus w s).version = s.version := rfl
@[simp] theorem writeStatus_ecl (w : Word) (s : State) : (writeStatus w s).ecl = s.ecl := rfl
@[simp] theorem writeStatus_mask (w : Word) (s : State) : (writeStatus w s).mask = s.mask := rfl
@[simp] theorem writeStatus_dataLen (w : Word) (s : State) : (writeStatus w s).dataLen = s.dataLen := rfl
@[simp] theorem writeStatus_ecLen (w : Word) (s : State) : (writeStatus w s).ecLen = s.ecLen := rfl
@[simp] theorem writeStatus_gfResult (w : Word) (s : State) : (writeStatus w s).gfResult = s.gfResult := rfl
@[simp] theorem writeStatus_matVersion (w : Word) (s : State) : (writeStatus w s).matVersion = s.matVersion := rfl
@[simp] theorem writeStatus_matSize (w : Word) (s : State) : (writeStatus w s).matSize = s.matSize := rfl
@[simp] theorem writeStatus_placed (w : Word) (s : State) : (writeStatus w s).placed = s.placed := rfl
@[simp] theorem writeStatus_errInfo (w : Word) (s : State) :
    (writeStatus w s).errInfo = if w.getLsbD 2 = true then 0 else s.errInfo := rfl
@[simp] theorem writeStatus_latch (w : Word) (s : State) : (writeStatus w s).latch = s.latch := rfl
@[simp] theorem writeStatus_cw (w : Word) (s : State) : (writeStatus w s).cw = s.cw := rfl
@[simp] theorem writeStatus_mat (w : Word) (s : State) : (writeStatus w s).mat = s.mat := rfl
@[simp] theorem writeStatus_ecLengths (w : Word) (s : State) : (writeStatus w s).ecLengths = s.ecLengths := rfl
@[simp] theorem writeStatus_resets (w : Word) (s : State) : (writeStatus w s).resets = s.resets := rfl
@[simp] theorem writeStatus_inbox (w : Word) (s : State) : (writeStatus w s).inbox = s.inbox := rfl
@[simp] theorem writeStatus_readData (w : Word) (s : State) : (writeStatus w s).readData = s.readData := rfl

/-! ### Reset (70_reset_and_hazards.md R260) -/

@[simp] theorem applyReset_irqEn (s : State) : (applyReset s).irqEn = State.reset.irqEn := rfl
@[simp] theorem applyReset_busy (s : State) : (applyReset s).busy = State.reset.busy := rfl
@[simp] theorem applyReset_done (s : State) : (applyReset s).done = State.reset.done := rfl
@[simp] theorem applyReset_err (s : State) : (applyReset s).err = State.reset.err := rfl
@[simp] theorem applyReset_ecunsup (s : State) : (applyReset s).ecunsup = State.reset.ecunsup := rfl
@[simp] theorem applyReset_trunc (s : State) : (applyReset s).trunc = State.reset.trunc := rfl
@[simp] theorem applyReset_errMult (s : State) : (applyReset s).errMult = State.reset.errMult := rfl
@[simp] theorem applyReset_errCode (s : State) : (applyReset s).errCode = State.reset.errCode := rfl
@[simp] theorem applyReset_version (s : State) : (applyReset s).version = State.reset.version := rfl
@[simp] theorem applyReset_ecl (s : State) : (applyReset s).ecl = State.reset.ecl := rfl
@[simp] theorem applyReset_mask (s : State) : (applyReset s).mask = State.reset.mask := rfl
@[simp] theorem applyReset_dataLen (s : State) : (applyReset s).dataLen = State.reset.dataLen := rfl
@[simp] theorem applyReset_ecLen (s : State) : (applyReset s).ecLen = State.reset.ecLen := rfl
@[simp] theorem applyReset_gfResult (s : State) : (applyReset s).gfResult = State.reset.gfResult := rfl
@[simp] theorem applyReset_matVersion (s : State) : (applyReset s).matVersion = State.reset.matVersion := rfl
@[simp] theorem applyReset_matSize (s : State) : (applyReset s).matSize = State.reset.matSize := rfl
@[simp] theorem applyReset_placed (s : State) : (applyReset s).placed = State.reset.placed := rfl
@[simp] theorem applyReset_errInfo (s : State) : (applyReset s).errInfo = State.reset.errInfo := rfl
@[simp] theorem applyReset_latch (s : State) : (applyReset s).latch = State.reset.latch := rfl
@[simp] theorem applyReset_cw (s : State) : (applyReset s).cw = State.reset.cw := rfl
@[simp] theorem applyReset_mat (s : State) : (applyReset s).mat = State.reset.mat := rfl
@[simp] theorem applyReset_ecLengths (s : State) : (applyReset s).ecLengths = s.ecLengths := rfl
@[simp] theorem applyReset_resets (s : State) : (applyReset s).resets = s.resets + 1 := rfl
@[simp] theorem applyReset_inbox (s : State) : (applyReset s).inbox = s.inbox := rfl
@[simp] theorem applyReset_readData (s : State) : (applyReset s).readData = s.readData := rfl

/-! ### RS_GEN (41_gf_rs.md R140) -/

@[simp] theorem rsGenEffect_irqEn (k n : Nat) (s : State) : (rsGenEffect k n s).irqEn = s.irqEn := by
  unfold rsGenEffect; split <;> [rfl; (split <;> rfl)]
@[simp] theorem rsGenEffect_busy (k n : Nat) (s : State) : (rsGenEffect k n s).busy = s.busy := by
  unfold rsGenEffect; split <;> [rfl; (split <;> rfl)]
@[simp] theorem rsGenEffect_done (k n : Nat) (s : State) : (rsGenEffect k n s).done = s.done := by
  unfold rsGenEffect; split <;> [rfl; (split <;> rfl)]
@[simp] theorem rsGenEffect_err (k n : Nat) (s : State) : (rsGenEffect k n s).err = s.err := by
  unfold rsGenEffect; split <;> [rfl; (split <;> rfl)]
@[simp] theorem rsGenEffect_trunc (k n : Nat) (s : State) : (rsGenEffect k n s).trunc = s.trunc := by
  unfold rsGenEffect; split <;> [rfl; (split <;> rfl)]
@[simp] theorem rsGenEffect_errMult (k n : Nat) (s : State) : (rsGenEffect k n s).errMult = s.errMult := by
  unfold rsGenEffect; split <;> [rfl; (split <;> rfl)]
@[simp] theorem rsGenEffect_errCode (k n : Nat) (s : State) : (rsGenEffect k n s).errCode = s.errCode := by
  unfold rsGenEffect; split <;> [rfl; (split <;> rfl)]
@[simp] theorem rsGenEffect_version (k n : Nat) (s : State) : (rsGenEffect k n s).version = s.version := by
  unfold rsGenEffect; split <;> [rfl; (split <;> rfl)]
@[simp] theorem rsGenEffect_ecl (k n : Nat) (s : State) : (rsGenEffect k n s).ecl = s.ecl := by
  unfold rsGenEffect; split <;> [rfl; (split <;> rfl)]
@[simp] theorem rsGenEffect_mask (k n : Nat) (s : State) : (rsGenEffect k n s).mask = s.mask := by
  unfold rsGenEffect; split <;> [rfl; (split <;> rfl)]
@[simp] theorem rsGenEffect_dataLen (k n : Nat) (s : State) : (rsGenEffect k n s).dataLen = s.dataLen := by
  unfold rsGenEffect; split <;> [rfl; (split <;> rfl)]
@[simp] theorem rsGenEffect_ecLen (k n : Nat) (s : State) : (rsGenEffect k n s).ecLen = s.ecLen := by
  unfold rsGenEffect; split <;> [rfl; (split <;> rfl)]
@[simp] theorem rsGenEffect_gfResult (k n : Nat) (s : State) : (rsGenEffect k n s).gfResult = s.gfResult := by
  unfold rsGenEffect; split <;> [rfl; (split <;> rfl)]
@[simp] theorem rsGenEffect_matVersion (k n : Nat) (s : State) : (rsGenEffect k n s).matVersion = s.matVersion := by
  unfold rsGenEffect; split <;> [rfl; (split <;> rfl)]
@[simp] theorem rsGenEffect_matSize (k n : Nat) (s : State) : (rsGenEffect k n s).matSize = s.matSize := by
  unfold rsGenEffect; split <;> [rfl; (split <;> rfl)]
@[simp] theorem rsGenEffect_placed (k n : Nat) (s : State) : (rsGenEffect k n s).placed = s.placed := by
  unfold rsGenEffect; split <;> [rfl; (split <;> rfl)]
@[simp] theorem rsGenEffect_errInfo (k n : Nat) (s : State) : (rsGenEffect k n s).errInfo = s.errInfo := by
  unfold rsGenEffect; split <;> [rfl; (split <;> rfl)]
@[simp] theorem rsGenEffect_latch (k n : Nat) (s : State) : (rsGenEffect k n s).latch = s.latch := by
  unfold rsGenEffect; split <;> [rfl; (split <;> rfl)]
@[simp] theorem rsGenEffect_mat (k n : Nat) (s : State) : (rsGenEffect k n s).mat = s.mat := by
  unfold rsGenEffect; split <;> [rfl; (split <;> rfl)]
@[simp] theorem rsGenEffect_ecLengths (k n : Nat) (s : State) : (rsGenEffect k n s).ecLengths = s.ecLengths := by
  unfold rsGenEffect; split <;> [rfl; (split <;> rfl)]
@[simp] theorem rsGenEffect_resets (k n : Nat) (s : State) : (rsGenEffect k n s).resets = s.resets := by
  unfold rsGenEffect; split <;> [rfl; (split <;> rfl)]
@[simp] theorem rsGenEffect_inbox (k n : Nat) (s : State) : (rsGenEffect k n s).inbox = s.inbox := by
  unfold rsGenEffect; split <;> [rfl; (split <;> rfl)]
@[simp] theorem rsGenEffect_readData (k n : Nat) (s : State) : (rsGenEffect k n s).readData = s.readData := by
  unfold rsGenEffect; split <;> [rfl; (split <;> rfl)]

/-! ### MAT_INIT (42_matrix.md R160) -/

@[simp] theorem matInitEffect_irqEn (v : BitVec 5) (s : State) :
    (matInitEffect v s).irqEn = s.irqEn := by
  simp only [matInitEffect]
@[simp] theorem matInitEffect_busy (v : BitVec 5) (s : State) :
    (matInitEffect v s).busy = s.busy := by
  simp only [matInitEffect]
@[simp] theorem matInitEffect_done (v : BitVec 5) (s : State) :
    (matInitEffect v s).done = s.done := by
  simp only [matInitEffect]
@[simp] theorem matInitEffect_err (v : BitVec 5) (s : State) :
    (matInitEffect v s).err = s.err := by
  simp only [matInitEffect]
@[simp] theorem matInitEffect_ecunsup (v : BitVec 5) (s : State) :
    (matInitEffect v s).ecunsup = s.ecunsup := by
  simp only [matInitEffect]
@[simp] theorem matInitEffect_trunc (v : BitVec 5) (s : State) :
    (matInitEffect v s).trunc = s.trunc := by
  simp only [matInitEffect]
@[simp] theorem matInitEffect_errMult (v : BitVec 5) (s : State) :
    (matInitEffect v s).errMult = s.errMult := by
  simp only [matInitEffect]
@[simp] theorem matInitEffect_errCode (v : BitVec 5) (s : State) :
    (matInitEffect v s).errCode = s.errCode := by
  simp only [matInitEffect]
@[simp] theorem matInitEffect_version (v : BitVec 5) (s : State) :
    (matInitEffect v s).version = s.version := by
  simp only [matInitEffect]
@[simp] theorem matInitEffect_ecl (v : BitVec 5) (s : State) :
    (matInitEffect v s).ecl = s.ecl := by
  simp only [matInitEffect]
@[simp] theorem matInitEffect_mask (v : BitVec 5) (s : State) :
    (matInitEffect v s).mask = s.mask := by
  simp only [matInitEffect]
@[simp] theorem matInitEffect_dataLen (v : BitVec 5) (s : State) :
    (matInitEffect v s).dataLen = s.dataLen := by
  simp only [matInitEffect]
@[simp] theorem matInitEffect_ecLen (v : BitVec 5) (s : State) :
    (matInitEffect v s).ecLen = s.ecLen := by
  simp only [matInitEffect]
@[simp] theorem matInitEffect_gfResult (v : BitVec 5) (s : State) :
    (matInitEffect v s).gfResult = s.gfResult := by
  simp only [matInitEffect]
@[simp] theorem matInitEffect_matVersion (v : BitVec 5) (s : State) :
    (matInitEffect v s).matVersion = v := by
  simp only [matInitEffect]
@[simp] theorem matInitEffect_matSize (v : BitVec 5) (s : State) :
    (matInitEffect v s).matSize = BitVec.ofNat 8 (sizeOf v) := by
  simp only [matInitEffect]
@[simp] theorem matInitEffect_placed (v : BitVec 5) (s : State) :
    (matInitEffect v s).placed = 0 := by
  simp only [matInitEffect]
@[simp] theorem matInitEffect_errInfo (v : BitVec 5) (s : State) :
    (matInitEffect v s).errInfo = s.errInfo := by
  simp only [matInitEffect]
@[simp] theorem matInitEffect_latch (v : BitVec 5) (s : State) :
    (matInitEffect v s).latch = s.latch := by
  simp only [matInitEffect]
@[simp] theorem matInitEffect_cw (v : BitVec 5) (s : State) :
    (matInitEffect v s).cw = s.cw := by
  simp only [matInitEffect]
@[simp] theorem matInitEffect_mat (v : BitVec 5) (s : State) :
    (matInitEffect v s).mat = storeCells (clearSquare (sizeOf v) s.mat) (initWrites v.toNat (sizeOf v)) := by
  simp only [matInitEffect]
@[simp] theorem matInitEffect_ecLengths (v : BitVec 5) (s : State) :
    (matInitEffect v s).ecLengths = s.ecLengths := by
  simp only [matInitEffect]
@[simp] theorem matInitEffect_resets (v : BitVec 5) (s : State) :
    (matInitEffect v s).resets = s.resets := by
  simp only [matInitEffect]
@[simp] theorem matInitEffect_inbox (v : BitVec 5) (s : State) :
    (matInitEffect v s).inbox = s.inbox := by
  simp only [matInitEffect]
@[simp] theorem matInitEffect_readData (v : BitVec 5) (s : State) :
    (matInitEffect v s).readData = s.readData := by
  simp only [matInitEffect]

/-! ### PLACE (42_matrix.md R177) -/

@[simp] theorem placeEffect_irqEn (N : Nat) (s : State) :
    (placeEffect N s).irqEn = s.irqEn := by
  simp only [placeEffect]
@[simp] theorem placeEffect_busy (N : Nat) (s : State) : (placeEffect N s).busy = s.busy := by
  simp only [placeEffect]
@[simp] theorem placeEffect_done (N : Nat) (s : State) : (placeEffect N s).done = s.done := by
  simp only [placeEffect]
@[simp] theorem placeEffect_err (N : Nat) (s : State) : (placeEffect N s).err = s.err := by
  simp only [placeEffect]
@[simp] theorem placeEffect_ecunsup (N : Nat) (s : State) :
    (placeEffect N s).ecunsup = s.ecunsup := by
  simp only [placeEffect]
@[simp] theorem placeEffect_trunc (N : Nat) (s : State) :
    (placeEffect N s).trunc = (s.trunc || decide ((placeLoop s.matSize.toNat (streamBit s N) s.mat).2 < 8 * N)) := by
  simp only [placeEffect]
@[simp] theorem placeEffect_errMult (N : Nat) (s : State) :
    (placeEffect N s).errMult = s.errMult := by
  simp only [placeEffect]
@[simp] theorem placeEffect_errCode (N : Nat) (s : State) :
    (placeEffect N s).errCode = s.errCode := by
  simp only [placeEffect]
@[simp] theorem placeEffect_version (N : Nat) (s : State) :
    (placeEffect N s).version = s.version := by
  simp only [placeEffect]
@[simp] theorem placeEffect_ecl (N : Nat) (s : State) : (placeEffect N s).ecl = s.ecl := by
  simp only [placeEffect]
@[simp] theorem placeEffect_mask (N : Nat) (s : State) : (placeEffect N s).mask = s.mask := by
  simp only [placeEffect]
@[simp] theorem placeEffect_dataLen (N : Nat) (s : State) :
    (placeEffect N s).dataLen = s.dataLen := by
  simp only [placeEffect]
@[simp] theorem placeEffect_ecLen (N : Nat) (s : State) :
    (placeEffect N s).ecLen = s.ecLen := by
  simp only [placeEffect]
@[simp] theorem placeEffect_gfResult (N : Nat) (s : State) :
    (placeEffect N s).gfResult = s.gfResult := by
  simp only [placeEffect]
@[simp] theorem placeEffect_matVersion (N : Nat) (s : State) :
    (placeEffect N s).matVersion = s.matVersion := by
  simp only [placeEffect]
@[simp] theorem placeEffect_matSize (N : Nat) (s : State) :
    (placeEffect N s).matSize = s.matSize := by
  simp only [placeEffect]
@[simp] theorem placeEffect_placed (N : Nat) (s : State) :
    (placeEffect N s).placed = BitVec.ofNat 16 (placeLoop s.matSize.toNat (streamBit s N) s.mat).2 := by
  simp only [placeEffect]
@[simp] theorem placeEffect_errInfo (N : Nat) (s : State) :
    (placeEffect N s).errInfo = s.errInfo := by
  simp only [placeEffect]
@[simp] theorem placeEffect_latch (N : Nat) (s : State) :
    (placeEffect N s).latch = s.latch := by
  simp only [placeEffect]
@[simp] theorem placeEffect_cw (N : Nat) (s : State) : (placeEffect N s).cw = s.cw := by
  simp only [placeEffect]
@[simp] theorem placeEffect_mat (N : Nat) (s : State) :
    (placeEffect N s).mat = (placeLoop s.matSize.toNat (streamBit s N) s.mat).1 := by
  simp only [placeEffect]
@[simp] theorem placeEffect_ecLengths (N : Nat) (s : State) :
    (placeEffect N s).ecLengths = s.ecLengths := by
  simp only [placeEffect]
@[simp] theorem placeEffect_resets (N : Nat) (s : State) :
    (placeEffect N s).resets = s.resets := by
  simp only [placeEffect]
@[simp] theorem placeEffect_inbox (N : Nat) (s : State) :
    (placeEffect N s).inbox = s.inbox := by
  simp only [placeEffect]
@[simp] theorem placeEffect_readData (N : Nat) (s : State) :
    (placeEffect N s).readData = s.readData := by
  simp only [placeEffect]

/-! ### MASK (42_matrix.md R182) -/

@[simp] theorem maskEffect_irqEn (id : BitVec 3) (s : State) :
    (maskEffect id s).irqEn = s.irqEn := by
  simp only [maskEffect]
@[simp] theorem maskEffect_busy (id : BitVec 3) (s : State) :
    (maskEffect id s).busy = s.busy := by
  simp only [maskEffect]
@[simp] theorem maskEffect_done (id : BitVec 3) (s : State) :
    (maskEffect id s).done = s.done := by
  simp only [maskEffect]
@[simp] theorem maskEffect_err (id : BitVec 3) (s : State) :
    (maskEffect id s).err = s.err := by
  simp only [maskEffect]
@[simp] theorem maskEffect_ecunsup (id : BitVec 3) (s : State) :
    (maskEffect id s).ecunsup = s.ecunsup := by
  simp only [maskEffect]
@[simp] theorem maskEffect_trunc (id : BitVec 3) (s : State) :
    (maskEffect id s).trunc = s.trunc := by
  simp only [maskEffect]
@[simp] theorem maskEffect_errMult (id : BitVec 3) (s : State) :
    (maskEffect id s).errMult = s.errMult := by
  simp only [maskEffect]
@[simp] theorem maskEffect_errCode (id : BitVec 3) (s : State) :
    (maskEffect id s).errCode = s.errCode := by
  simp only [maskEffect]
@[simp] theorem maskEffect_version (id : BitVec 3) (s : State) :
    (maskEffect id s).version = s.version := by
  simp only [maskEffect]
@[simp] theorem maskEffect_ecl (id : BitVec 3) (s : State) :
    (maskEffect id s).ecl = s.ecl := by
  simp only [maskEffect]
@[simp] theorem maskEffect_mask (id : BitVec 3) (s : State) :
    (maskEffect id s).mask = s.mask := by
  simp only [maskEffect]
@[simp] theorem maskEffect_dataLen (id : BitVec 3) (s : State) :
    (maskEffect id s).dataLen = s.dataLen := by
  simp only [maskEffect]
@[simp] theorem maskEffect_ecLen (id : BitVec 3) (s : State) :
    (maskEffect id s).ecLen = s.ecLen := by
  simp only [maskEffect]
@[simp] theorem maskEffect_gfResult (id : BitVec 3) (s : State) :
    (maskEffect id s).gfResult = s.gfResult := by
  simp only [maskEffect]
@[simp] theorem maskEffect_matVersion (id : BitVec 3) (s : State) :
    (maskEffect id s).matVersion = s.matVersion := by
  simp only [maskEffect]
@[simp] theorem maskEffect_matSize (id : BitVec 3) (s : State) :
    (maskEffect id s).matSize = s.matSize := by
  simp only [maskEffect]
@[simp] theorem maskEffect_placed (id : BitVec 3) (s : State) :
    (maskEffect id s).placed = s.placed := by
  simp only [maskEffect]
@[simp] theorem maskEffect_errInfo (id : BitVec 3) (s : State) :
    (maskEffect id s).errInfo = s.errInfo := by
  simp only [maskEffect]
@[simp] theorem maskEffect_latch (id : BitVec 3) (s : State) :
    (maskEffect id s).latch = s.latch := by
  simp only [maskEffect]
@[simp] theorem maskEffect_cw (id : BitVec 3) (s : State) : (maskEffect id s).cw = s.cw := by
  simp only [maskEffect]
@[simp] theorem maskEffect_mat (id : BitVec 3) (s : State) :
    (maskEffect id s).mat = (squareCells s.matSize.toNat).foldl (maskVisit id) s.mat := by
  simp only [maskEffect]
@[simp] theorem maskEffect_ecLengths (id : BitVec 3) (s : State) :
    (maskEffect id s).ecLengths = s.ecLengths := by
  simp only [maskEffect]
@[simp] theorem maskEffect_resets (id : BitVec 3) (s : State) :
    (maskEffect id s).resets = s.resets := by
  simp only [maskEffect]
@[simp] theorem maskEffect_inbox (id : BitVec 3) (s : State) :
    (maskEffect id s).inbox = s.inbox := by
  simp only [maskEffect]
@[simp] theorem maskEffect_readData (id : BitVec 3) (s : State) :
    (maskEffect id s).readData = s.readData := by
  simp only [maskEffect]

/-! ### STAMP_FMT (43_stamp.md R201) -/

@[simp] theorem stampFmtEffect_irqEn (e : BitVec 2) (m : BitVec 3) (s : State) :
    (stampFmtEffect e m s).irqEn = s.irqEn := by
  simp only [stampFmtEffect]
@[simp] theorem stampFmtEffect_busy (e : BitVec 2) (m : BitVec 3) (s : State) :
    (stampFmtEffect e m s).busy = s.busy := by
  simp only [stampFmtEffect]
@[simp] theorem stampFmtEffect_done (e : BitVec 2) (m : BitVec 3) (s : State) :
    (stampFmtEffect e m s).done = s.done := by
  simp only [stampFmtEffect]
@[simp] theorem stampFmtEffect_err (e : BitVec 2) (m : BitVec 3) (s : State) :
    (stampFmtEffect e m s).err = s.err := by
  simp only [stampFmtEffect]
@[simp] theorem stampFmtEffect_ecunsup (e : BitVec 2) (m : BitVec 3) (s : State) :
    (stampFmtEffect e m s).ecunsup = s.ecunsup := by
  simp only [stampFmtEffect]
@[simp] theorem stampFmtEffect_trunc (e : BitVec 2) (m : BitVec 3) (s : State) :
    (stampFmtEffect e m s).trunc = s.trunc := by
  simp only [stampFmtEffect]
@[simp] theorem stampFmtEffect_errMult (e : BitVec 2) (m : BitVec 3) (s : State) :
    (stampFmtEffect e m s).errMult = s.errMult := by
  simp only [stampFmtEffect]
@[simp] theorem stampFmtEffect_errCode (e : BitVec 2) (m : BitVec 3) (s : State) :
    (stampFmtEffect e m s).errCode = s.errCode := by
  simp only [stampFmtEffect]
@[simp] theorem stampFmtEffect_version (e : BitVec 2) (m : BitVec 3) (s : State) :
    (stampFmtEffect e m s).version = s.version := by
  simp only [stampFmtEffect]
@[simp] theorem stampFmtEffect_ecl (e : BitVec 2) (m : BitVec 3) (s : State) :
    (stampFmtEffect e m s).ecl = s.ecl := by
  simp only [stampFmtEffect]
@[simp] theorem stampFmtEffect_mask (e : BitVec 2) (m : BitVec 3) (s : State) :
    (stampFmtEffect e m s).mask = s.mask := by
  simp only [stampFmtEffect]
@[simp] theorem stampFmtEffect_dataLen (e : BitVec 2) (m : BitVec 3) (s : State) :
    (stampFmtEffect e m s).dataLen = s.dataLen := by
  simp only [stampFmtEffect]
@[simp] theorem stampFmtEffect_ecLen (e : BitVec 2) (m : BitVec 3) (s : State) :
    (stampFmtEffect e m s).ecLen = s.ecLen := by
  simp only [stampFmtEffect]
@[simp] theorem stampFmtEffect_gfResult (e : BitVec 2) (m : BitVec 3) (s : State) :
    (stampFmtEffect e m s).gfResult = s.gfResult := by
  simp only [stampFmtEffect]
@[simp] theorem stampFmtEffect_matVersion (e : BitVec 2) (m : BitVec 3) (s : State) :
    (stampFmtEffect e m s).matVersion = s.matVersion := by
  simp only [stampFmtEffect]
@[simp] theorem stampFmtEffect_matSize (e : BitVec 2) (m : BitVec 3) (s : State) :
    (stampFmtEffect e m s).matSize = s.matSize := by
  simp only [stampFmtEffect]
@[simp] theorem stampFmtEffect_placed (e : BitVec 2) (m : BitVec 3) (s : State) :
    (stampFmtEffect e m s).placed = s.placed := by
  simp only [stampFmtEffect]
@[simp] theorem stampFmtEffect_errInfo (e : BitVec 2) (m : BitVec 3) (s : State) :
    (stampFmtEffect e m s).errInfo = s.errInfo := by
  simp only [stampFmtEffect]
@[simp] theorem stampFmtEffect_latch (e : BitVec 2) (m : BitVec 3) (s : State) :
    (stampFmtEffect e m s).latch = s.latch := by
  simp only [stampFmtEffect]
@[simp] theorem stampFmtEffect_cw (e : BitVec 2) (m : BitVec 3) (s : State) :
    (stampFmtEffect e m s).cw = s.cw := by
  simp only [stampFmtEffect]
@[simp] theorem stampFmtEffect_mat (e : BitVec 2) (m : BitVec 3) (s : State) :
    (stampFmtEffect e m s).mat = storeCells s.mat (fmtWrites s.matSize.toNat (fmtWord e m)) := by
  simp only [stampFmtEffect]
@[simp] theorem stampFmtEffect_ecLengths (e : BitVec 2) (m : BitVec 3) (s : State) :
    (stampFmtEffect e m s).ecLengths = s.ecLengths := by
  simp only [stampFmtEffect]
@[simp] theorem stampFmtEffect_resets (e : BitVec 2) (m : BitVec 3) (s : State) :
    (stampFmtEffect e m s).resets = s.resets := by
  simp only [stampFmtEffect]
@[simp] theorem stampFmtEffect_inbox (e : BitVec 2) (m : BitVec 3) (s : State) :
    (stampFmtEffect e m s).inbox = s.inbox := by
  simp only [stampFmtEffect]
@[simp] theorem stampFmtEffect_readData (e : BitVec 2) (m : BitVec 3) (s : State) :
    (stampFmtEffect e m s).readData = s.readData := by
  simp only [stampFmtEffect]

/-! ### STAMP_VER (43_stamp.md R206) -/

@[simp] theorem stampVerEffect_irqEn (s : State) : (stampVerEffect s).irqEn = s.irqEn := by
  unfold stampVerEffect; split <;> rfl
@[simp] theorem stampVerEffect_busy (s : State) : (stampVerEffect s).busy = s.busy := by
  unfold stampVerEffect; split <;> rfl
@[simp] theorem stampVerEffect_done (s : State) : (stampVerEffect s).done = s.done := by
  unfold stampVerEffect; split <;> rfl
@[simp] theorem stampVerEffect_err (s : State) : (stampVerEffect s).err = s.err := by
  unfold stampVerEffect; split <;> rfl
@[simp] theorem stampVerEffect_ecunsup (s : State) : (stampVerEffect s).ecunsup = s.ecunsup := by
  unfold stampVerEffect; split <;> rfl
@[simp] theorem stampVerEffect_trunc (s : State) : (stampVerEffect s).trunc = s.trunc := by
  unfold stampVerEffect; split <;> rfl
@[simp] theorem stampVerEffect_errMult (s : State) : (stampVerEffect s).errMult = s.errMult := by
  unfold stampVerEffect; split <;> rfl
@[simp] theorem stampVerEffect_errCode (s : State) : (stampVerEffect s).errCode = s.errCode := by
  unfold stampVerEffect; split <;> rfl
@[simp] theorem stampVerEffect_version (s : State) : (stampVerEffect s).version = s.version := by
  unfold stampVerEffect; split <;> rfl
@[simp] theorem stampVerEffect_ecl (s : State) : (stampVerEffect s).ecl = s.ecl := by
  unfold stampVerEffect; split <;> rfl
@[simp] theorem stampVerEffect_mask (s : State) : (stampVerEffect s).mask = s.mask := by
  unfold stampVerEffect; split <;> rfl
@[simp] theorem stampVerEffect_dataLen (s : State) : (stampVerEffect s).dataLen = s.dataLen := by
  unfold stampVerEffect; split <;> rfl
@[simp] theorem stampVerEffect_ecLen (s : State) : (stampVerEffect s).ecLen = s.ecLen := by
  unfold stampVerEffect; split <;> rfl
@[simp] theorem stampVerEffect_gfResult (s : State) : (stampVerEffect s).gfResult = s.gfResult := by
  unfold stampVerEffect; split <;> rfl
@[simp] theorem stampVerEffect_matVersion (s : State) : (stampVerEffect s).matVersion = s.matVersion := by
  unfold stampVerEffect; split <;> rfl
@[simp] theorem stampVerEffect_matSize (s : State) : (stampVerEffect s).matSize = s.matSize := by
  unfold stampVerEffect; split <;> rfl
@[simp] theorem stampVerEffect_placed (s : State) : (stampVerEffect s).placed = s.placed := by
  unfold stampVerEffect; split <;> rfl
@[simp] theorem stampVerEffect_errInfo (s : State) : (stampVerEffect s).errInfo = s.errInfo := by
  unfold stampVerEffect; split <;> rfl
@[simp] theorem stampVerEffect_latch (s : State) : (stampVerEffect s).latch = s.latch := by
  unfold stampVerEffect; split <;> rfl
@[simp] theorem stampVerEffect_cw (s : State) : (stampVerEffect s).cw = s.cw := by
  unfold stampVerEffect; split <;> rfl
@[simp] theorem stampVerEffect_mat (s : State) :
    (stampVerEffect s).mat = if 7 ≤ s.matVersion.toNat then storeCells s.mat (verWrites s.matSize.toNat (verWord s.matVersion.toNat)) else s.mat := by
  unfold stampVerEffect; split <;> rfl
@[simp] theorem stampVerEffect_ecLengths (s : State) : (stampVerEffect s).ecLengths = s.ecLengths := by
  unfold stampVerEffect; split <;> rfl
@[simp] theorem stampVerEffect_resets (s : State) : (stampVerEffect s).resets = s.resets := by
  unfold stampVerEffect; split <;> rfl
@[simp] theorem stampVerEffect_inbox (s : State) : (stampVerEffect s).inbox = s.inbox := by
  unfold stampVerEffect; split <;> rfl
@[simp] theorem stampVerEffect_readData (s : State) : (stampVerEffect s).readData = s.readData := by
  unfold stampVerEffect; split <;> rfl

end Sys2Proof.Machine
end

