-- ==== Sys2Proof/Laws/Commands.lean ====
section
/-! SUPPORT. What the commands' effects do to the two memories, and that they keep the canonical forms. -/

namespace Sys2Proof.Machine

/-! ## The Reed-Solomon generator -/

theorem mulRoot_length (root prev : Byte) (xs : List Byte) : (mulRoot root prev xs).length = xs.length + 1 := by
  induction xs generalizing prev with
  | nil => rfl
  | cons x xs ih => simp [mulRoot, ih]

theorem genPoly_length (n : Nat) : (genPoly n).length = n + 1 := by
  induction n with
  | zero => rfl
  | succ n ih => simp [genPoly, mulRoot_length, ih]

theorem rsStep_length (g r : List Byte) (d : Byte) (hr : r.length = g.length) (hg : g ≠ []) :
    (rsStep g r d).length = g.length := by
  have : 0 < g.length := List.length_pos_iff.2 hg
  simp [rsStep, hr]
  omega

theorem foldl_rsStep_length (g : List Byte) (hg : g ≠ []) (data r : List Byte) (hr : r.length = g.length) :
    (data.foldl (rsStep g) r).length = g.length := by
  induction data generalizing r with
  | nil => exact hr
  | cons d data ih => exact ih _ (rsStep_length g r d hr hg)

/-- The remainder for EC length `n` has `n` bytes. -/
theorem rsRemainder_length (n : Nat) (data : List Byte) (hn : n ≠ 0) : (rsRemainder n data).length = n := by
  have hl : (genPoly n).tail.length = n := by simp [genPoly_length]
  have hg : (genPoly n).tail ≠ [] := fun h => hn (by rw [← hl, h]; rfl)
  unfold rsRemainder
  rw [foldl_rsStep_length _ hg _ _ (by simp [hl]), hl]

theorem cwWf_rsGenEffect (k n : Nat) {s : State} (h : cwWf s.cw) : cwWf (rsGenEffect k n s).cw := by
  unfold rsGenEffect
  split
  · exact h
  · split
    · exact cwWf_storeBytes _ h _
    · exact cwWf_storeBytes _ h _

/-! ## The matrix commands -/

theorem matWf_placeVisit (stream : Nat → Bool) (acc : Matrix × Nat) (p : Nat × Nat) (h : matWf acc.1) :
    matWf (placeVisit stream acc p).1 := by
  unfold placeVisit
  split
  · exact matWf_storeCell h _ _ _
  · exact h

theorem matWf_placeLoop (n : Nat) (stream : Nat → Bool) {m : Matrix} (h : matWf m) :
    matWf (placeLoop n stream m).1 := by
  have key : ∀ (ps : List (Nat × Nat)) (acc : Matrix × Nat), matWf acc.1 →
      matWf (ps.foldl (placeVisit stream) acc).1 := by
    intro ps
    induction ps with
    | nil => intro acc h; exact h
    | cons p ps ih => intro acc h; exact ih _ (matWf_placeVisit stream acc p h)
  exact key _ _ h

theorem matWf_maskVisit (id : BitVec 3) {m : Matrix} (p : Nat × Nat) (h : matWf m) : matWf (maskVisit id m p) := by
  unfold maskVisit
  split
  · exact matWf_storeCell h _ _ _
  · exact h

theorem matWf_maskFold (id : BitVec 3) (ps : List (Nat × Nat)) {m : Matrix} (h : matWf m) :
    matWf (ps.foldl (maskVisit id) m) := by
  induction ps generalizing m with
  | nil => exact h
  | cons p ps ih => exact ih (matWf_maskVisit id p h)

theorem matWf_matInitEffect (v : BitVec 5) {s : State} (h : matWf s.mat) : matWf (matInitEffect v s).mat := by
  rw [matInitEffect_mat]
  exact matWf_storeCells _ (matWf_clearSquare _ h)

theorem matWf_placeEffect (N : Nat) {s : State} (h : matWf s.mat) : matWf (placeEffect N s).mat := by
  rw [placeEffect_mat]
  exact matWf_placeLoop _ _ h

theorem matWf_maskEffect (id : BitVec 3) {s : State} (h : matWf s.mat) : matWf (maskEffect id s).mat := by
  rw [maskEffect_mat]
  exact matWf_maskFold _ _ h

theorem matWf_stampFmtEffect (e : BitVec 2) (m : BitVec 3) {s : State} (h : matWf s.mat) :
    matWf (stampFmtEffect e m s).mat := by
  rw [stampFmtEffect_mat]
  exact matWf_storeCells _ h

theorem matWf_stampVerEffect {s : State} (h : matWf s.mat) : matWf (stampVerEffect s).mat := by
  rw [stampVerEffect_mat]
  split
  · exact matWf_storeCells _ h
  · exact h

theorem matWf_buildEffect (l : Latch) {s : State} (h : matWf s.mat) : matWf (buildEffect l s).mat :=
  matWf_stampVerEffect (matWf_stampFmtEffect _ _ (matWf_maskEffect _ (matWf_placeEffect _ (matWf_matInitEffect _ h))))

/-! ## Light UNSET cells -/

theorem unsetLight_storeCell {m : Matrix} (h : unsetLight m) (r c : Nat) (x : MatCell)
    (hx : x.kind = .unset → x.val = false) : unsetLight (storeCell m r c x) := by
  intro r' c'
  rw [loadCell_storeCell]
  split
  · exact hx
  · exact h r' c'

theorem unsetLight_storeCells (ws : List CellWrite) {m : Matrix} (h : unsetLight m)
    (hw : ∀ w ∈ ws, w.2.2.kind ≠ .unset) : unsetLight (storeCells m ws) := by
  induction ws generalizing m with
  | nil => exact h
  | cons w ws ih =>
    exact ih (unsetLight_storeCell h _ _ _ fun hk => absurd hk (hw w (List.mem_cons_self ..)))
      fun v hv => hw v (List.mem_cons_of_mem _ hv)

theorem unsetLight_clearSquare (n : Nat) {m : Matrix} (hm : matWf m) (h : unsetLight m) :
    unsetLight (clearSquare n m) := by
  intro r c
  rw [loadCell_clearSquare n hm]
  split
  · intro _; rfl
  · exact h r c

theorem unsetLight_placeLoop (n : Nat) (stream : Nat → Bool) {m : Matrix} (h : unsetLight m) :
    unsetLight (placeLoop n stream m).1 := by
  have key : ∀ (ps : List (Nat × Nat)) (acc : Matrix × Nat), unsetLight acc.1 →
      unsetLight (ps.foldl (placeVisit stream) acc).1 := by
    intro ps
    induction ps with
    | nil => intro acc h; exact h
    | cons p ps ih =>
      intro acc h
      refine ih _ ?_
      unfold placeVisit
      split
      · exact unsetLight_storeCell h _ _ _ fun hk => by cases hk
      · exact h
  exact key _ _ h

theorem unsetLight_maskFold (id : BitVec 3) (ps : List (Nat × Nat)) {m : Matrix} (h : unsetLight m) :
    unsetLight (ps.foldl (maskVisit id) m) := by
  induction ps generalizing m with
  | nil => exact h
  | cons p ps ih =>
    refine ih ?_
    unfold maskVisit
    split
    · exact unsetLight_storeCell h _ _ _ fun hk => by cases hk
    · exact h

/-! ## What the write lists hold -/

/-- The stamps of the metadata write RESERVED cells. -/
theorem fmtWrites_kind {n : Nat} {b : BitVec 15} {w : CellWrite} (h : w ∈ fmtWrites n b) :
    w.2.2.kind = .reserved := by
  simp only [fmtWrites, List.mem_flatMap, List.mem_cons, List.not_mem_nil, or_false] at h
  obtain ⟨i, -, rfl | rfl⟩ := h <;> rfl

theorem verWrites_kind {n : Nat} {b : BitVec 18} {w : CellWrite} (h : w ∈ verWrites n b) :
    w.2.2.kind = .reserved := by
  simp only [verWrites, List.mem_flatMap, List.mem_cons, List.not_mem_nil, or_false] at h
  obtain ⟨i, -, rfl | rfl⟩ := h <;> rfl

theorem finderWrites_kind {n : Nat} {w : CellWrite} (h : w ∈ finderWrites n) : w.2.2.kind = .function := by
  simp only [finderWrites, List.mem_flatMap, List.mem_append, finderAt, separatorAt, List.mem_map] at h
  obtain ⟨o, -, ⟨p, -, rfl⟩ | ⟨p, -, rfl⟩⟩ := h <;> rfl

theorem timingWrites_kind {n : Nat} {w : CellWrite} (h : w ∈ timingWrites n) : w.2.2.kind = .function := by
  simp only [timingWrites, List.mem_flatMap, List.mem_cons, List.not_mem_nil, or_false] at h
  obtain ⟨t, -, rfl | rfl⟩ := h <;> rfl

theorem alignmentWrites_kind {v n : Nat} {w : CellWrite} (h : w ∈ alignmentWrites v n) :
    w.2.2.kind = .function := by
  simp only [alignmentWrites, List.mem_flatMap] at h
  obtain ⟨r, -, c, -, h⟩ := h
  split at h
  · exact absurd h List.not_mem_nil
  · simp only [alignmentAt, List.mem_map] at h
    obtain ⟨p, -, rfl⟩ := h
    rfl

/-- MAT_INIT writes FUNCTION and RESERVED cells only, after clearing (10_state.md R43). -/
theorem initWrites_kind {v n : Nat} {w : CellWrite} (h : w ∈ initWrites v n) : w.2.2.kind ≠ .unset := by
  simp only [initWrites, List.mem_append, List.mem_singleton] at h
  rcases h with ((((h | h) | h) | h) | h) | rfl
  · rw [finderWrites_kind h]; decide
  · rw [timingWrites_kind h]; decide
  · split at h
    · rw [alignmentWrites_kind h]; decide
    · exact absurd h List.not_mem_nil
  · rw [fmtWrites_kind h]; decide
  · split at h
    · rw [verWrites_kind h]; decide
    · exact absurd h List.not_mem_nil
  · exact Kind.noConfusion

theorem unsetLight_buildEffect (l : Latch) {s : State} (hm : matWf s.mat) (h : unsetLight s.mat) :
    unsetLight (buildEffect l s).mat := by
  have h1 : unsetLight (matInitEffect l.version s).mat := by
    rw [matInitEffect_mat]
    exact unsetLight_storeCells _ (unsetLight_clearSquare _ hm h) fun w hw => initWrites_kind hw
  have h2 : unsetLight (placeEffect (l.dlen.toNat + l.elen.toNat) (matInitEffect l.version s)).mat := by
    rw [placeEffect_mat]
    exact unsetLight_placeLoop _ _ h1
  have h3 : unsetLight (maskEffect l.mask
      (placeEffect (l.dlen.toNat + l.elen.toNat) (matInitEffect l.version s))).mat := by
    rw [maskEffect_mat]
    exact unsetLight_maskFold _ _ h2
  have h4 : unsetLight (stampFmtEffect l.ecl l.mask (maskEffect l.mask
      (placeEffect (l.dlen.toNat + l.elen.toNat) (matInitEffect l.version s)))).mat := by
    rw [stampFmtEffect_mat]
    exact unsetLight_storeCells _ h3 fun w hw => by rw [fmtWrites_kind hw]; decide
  unfold buildEffect
  rw [stampVerEffect_mat]
  split
  · exact unsetLight_storeCells _ h4 fun w hw => by rw [verWrites_kind hw]; decide
  · exact h4

end Sys2Proof.Machine
end

