-- ==== Sys2Proof/Laws/PerInstr.lean ====
section
/-! SUPPORT. One fact for each command of the opcode map (30_encoding.md R90, R91): its word carries its opcode in bits
[7:0] and nothing in bits [31:24]. -/

namespace Sys2Proof.Laws.Layout

/-- The word of the command has its opcode in bits [7:0] and zeros in bits [31:24], and the command is well-formed. -/
def Statement (i : Instr) : Prop :=
  opcField (encode i) = opcode i ∧ (encode i).extractLsb' 24 8 = 0#8 ∧ i.wellFormed = true

theorem nop : Statement .nop := by unfold Statement; decide

theorem gfMul (a b : Byte) : Statement (.gfMul a b) := by
  refine ⟨?_, ?_, rfl⟩
  · show opcField (encodeG 0x01#8 a b) = 0x01#8
    unfold opcField encodeG
    grind
  · show (encodeG 0x01#8 a b).extractLsb' 24 8 = 0#8
    unfold encodeG
    grind

theorem rsGen : Statement .rsGen := by unfold Statement; decide

theorem matInit : Statement .matInit := by unfold Statement; decide

theorem place : Statement .place := by unfold Statement; decide

theorem mask : Statement .mask := by unfold Statement; decide

theorem stampFmt : Statement .stampFmt := by unfold Statement; decide

theorem stampVer : Statement .stampVer := by unfold Statement; decide

theorem build : Statement .build := by unfold Statement; decide

theorem encode : Statement .encode := by unfold Statement; decide

end Sys2Proof.Laws.Layout
end

