-- ==== Sys2Proof/Laws/Step.lean ====
section
/-! SUPPORT. Inversion lemmas: everything issue, a host access and a step can do, said once. -/

namespace Sys2Proof.Machine

/-! ## Commands -/

/-- The effect of a command on the state, without completion (40_command_control.md R114). -/
def effect (i : Instr) (s : State) : State :=
  match i with
  | .nop => s
  | .gfMul a b => { s with gfResult := gfMul a b }
  | .rsGen => rsGenEffect s.latch.dlen.toNat s.latch.elen.toNat s
  | .matInit => matInitEffect s.latch.version s
  | .place => placeEffect (streamLength s) s
  | .mask => maskEffect s.latch.mask s
  | .stampFmt => stampFmtEffect s.latch.ecl s.latch.mask s
  | .stampVer => stampVerEffect s
  | .build => buildEffect s.latch s
  | .encode => encodeEffect s.latch s

/-- Every command completes with its effect. -/
theorem exec_eq (i : Instr) (s : State) : exec i s = .next (complete (effect i s)) := by
  cases i <;> simp only [exec, effect, execNop, execGfMul, execRsGen, execMatInit, execPlace, execMask, execStampFmt,
    execStampVer, execBuild, execEncode]

/-- No command's effect touches the error record, the host-written registers, the latch or the model's own fields. -/
theorem effect_frame (i : Instr) (s : State) :
    (effect i s).irqEn = s.irqEn ∧ (effect i s).err = s.err ∧ (effect i s).errMult = s.errMult ∧
    (effect i s).errCode = s.errCode ∧ (effect i s).errInfo = s.errInfo ∧ (effect i s).version = s.version ∧
    (effect i s).ecl = s.ecl ∧ (effect i s).mask = s.mask ∧ (effect i s).dataLen = s.dataLen ∧
    (effect i s).ecLen = s.ecLen ∧ (effect i s).latch = s.latch ∧ (effect i s).ecLengths = s.ecLengths ∧
    (effect i s).resets = s.resets ∧ (effect i s).inbox = s.inbox ∧ (effect i s).readData = s.readData := by
  cases i <;> simp [effect, encodeEffect, buildEffect]

theorem cwWf_effect (i : Instr) {s : State} (h : cwWf s.cw) : cwWf (effect i s).cw := by
  cases i <;> simp only [effect, encodeEffect, buildEffect, matInitEffect_cw, placeEffect_cw, maskEffect_cw,
    stampFmtEffect_cw, stampVerEffect_cw]
  case rsGen => exact cwWf_rsGenEffect _ _ h
  case encode => exact cwWf_rsGenEffect _ _ h
  all_goals exact h

theorem matWf_effect (i : Instr) {s : State} (h : matWf s.mat) : matWf (effect i s).mat := by
  cases i <;> simp only [effect, rsGenEffect_mat, encodeEffect]
  case matInit => exact matWf_matInitEffect _ h
  case place => exact matWf_placeEffect _ h
  case mask => exact matWf_maskEffect _ h
  case stampFmt => exact matWf_stampFmtEffect _ _ h
  case stampVer => exact matWf_stampVerEffect h
  case build => exact matWf_buildEffect _ h
  case encode => exact matWf_buildEffect _ (by rw [rsGenEffect_mat]; exact h)
  all_goals exact h

/-! ## Issue -/

theorem issueError_ne_none {i : Instr} {s : State} {code : ErrCode} (h : issueError i s = some code) :
    code ≠ .none := by
  unfold issueError at h
  split at h
  · cases h; decide
  · split at h
    · cases h; decide
    · split at h
      · cases h; decide
      · exact absurd h (by simp)

/-- Issue accepts a legal command whose checks pass on an idle block, or records one error (40_command_control.md
R110). -/
theorem issue_cases (w : Word) (s : State) :
    (s.busy = false ∧ (∃ i, decode w = .ok i ∧ issueError i s = none) ∧ issue w s = accept w s) ∨
      ∃ code, code ≠ .none ∧ issue w s = raiseError code w s := by
  unfold issue
  cases hb : s.busy with
  | true => exact .inr ⟨_, by decide, rfl⟩
  | false =>
    cases hd : decode w with
    | error e => exact .inr ⟨_, by decide, rfl⟩
    | ok i =>
      cases hi : issueError i s with
      | some code => exact .inr ⟨code, issueError_ne_none hi, by simp [hi]⟩
      | none => exact .inl ⟨rfl, ⟨i, rfl, hi⟩, by simp [hi]⟩

/-! ## Host accesses -/

/-- A read records a bus-access error and returns 0, or returns a value and does nothing else (20_memory.md R65 to
R67). -/
theorem hostRead_cases (off : Offset) (w : Width) (s : State) :
    (accessRefused off w s = true ∧
        hostRead off w s = { raiseError .busAccess (accessInfo off w false) s with readData := some 0 }) ∨
      (accessRefused off w s = false ∧ hostRead off w s = { s with readData := some (readValue off w s) }) := by
  unfold hostRead
  cases accessRefused off w s with
  | true => exact .inl ⟨rfl, rfl⟩
  | false => exact .inr ⟨rfl, rfl⟩

/-- A write of the register space changes one writable register, issues, clears, or does nothing (10_state.md R22). -/
theorem writeRegister_cases (off : Nat) (v : Word) (s : State) :
    writeRegister off v s = { s with irqEn := v.getLsbD 0 } ∨ writeRegister off v s = issue v s ∨
      writeRegister off v s = writeStatus v s ∨
      writeRegister off v s =
        { s with version := v.extractLsb' 0 5, ecl := v.extractLsb' 8 2, mask := v.extractLsb' 12 3 } ∨
      writeRegister off v s = { s with dataLen := v.extractLsb' 0 13 } ∨
      writeRegister off v s = { s with ecLen := v.extractLsb' 0 8 } ∨ writeRegister off v s = s := by
  unfold writeRegister
  split
  · exact .inl rfl
  · exact .inr (.inl rfl)
  · exact .inr (.inr (.inl rfl))
  · exact .inr (.inr (.inr (.inl rfl)))
  · exact .inr (.inr (.inr (.inr (.inl rfl))))
  · exact .inr (.inr (.inr (.inr (.inr (.inl rfl)))))
  · exact .inr (.inr (.inr (.inr (.inr (.inr rfl)))))

/-- A write is refused and recorded, reaches a register, stores bytes in CW, or does nothing (20_memory.md R62). -/
theorem hostWrite_cases (off : Offset) (w : Width) (v : Word) (s : State) :
    (accessRefused off w s = true ∧ hostWrite off w v s = raiseError .busAccess (accessInfo off w true) s) ∨
      (accessRefused off w s = false ∧ region off = .registers ∧ hostWrite off w v s = writeRegister off.toNat v s) ∨
      (accessRefused off w s = false ∧ region off = .codewords ∧ s.busy = false ∧
        hostWrite off w v s = { s with cw := storeBytes s.cw (off.toNat - 0x1000) (splitBytes v w.bytes) }) ∨
      (accessRefused off w s = false ∧ hostWrite off w v s = s) := by
  unfold hostWrite
  cases ha : accessRefused off w s with
  | true => exact .inl ⟨rfl, rfl⟩
  | false =>
    cases hr : region off with
    | registers => exact .inr (.inl ⟨rfl, rfl, rfl⟩)
    | codewords =>
      refine .inr (.inr (.inl ⟨rfl, rfl, ?_, rfl⟩))
      have := (Bool.or_eq_false_iff.1 ha).2
      simpa [windowClosed, hr] using this
    | hole => exact .inr (.inr (.inr ⟨rfl, rfl⟩))
    | matrix => exact .inr (.inr (.inr ⟨rfl, rfl⟩))

/-! ## Steps -/

/-- What a turn of the engine does (40_command_control.md R114). -/
theorem engineTurn_cases (s : State) :
    (s.busy = true ∧ engineTurn s = .run s.latch.word s) ∨ (s.busy = false ∧ engineTurn s = .served s) := by
  unfold engineTurn
  cases s.busy with
  | true => exact .inl ⟨rfl, rfl⟩
  | false => exact .inr ⟨rfl, rfl⟩

/-- The engine's step: the latched command completes, the block is idle and nothing happens, or the latch holds no
command. -/
theorem step_of_engineTurn {s s' : State} (h : nextTurn s = engineTurn s') :
    (s'.busy = false ∧ step s = .next s') ∨
      (∃ i, s'.busy = true ∧ decode s'.latch.word = .ok i ∧ step s = .next (complete (effect i s'))) ∨
      (∃ e, s'.busy = true ∧ decode s'.latch.word = .error e ∧ step s = .fault .illegalLatch) := by
  unfold step
  rw [h]
  rcases engineTurn_cases s' with ⟨hb, he⟩ | ⟨hb, he⟩
  · rw [he]
    cases hd : decode s'.latch.word with
    | ok i => exact .inr (.inl ⟨i, hb, rfl, by simp [hd, exec_eq]⟩)
    | error e => exact .inr (.inr ⟨e, hb, rfl, by simp [hd]⟩)
  · rw [he]
    exact .inl ⟨hb, rfl⟩

/-- Everything a step can do: serve a host access or a reset, have no step for an idle block, complete the running
command, or stop at a latch that holds no command. -/
theorem step_cases (s : State) :
    (∃ off w rest, s.inbox = .read off w :: rest ∧ step s = .next (hostRead off w { s with inbox := rest })) ∨
    (∃ off w v rest, s.inbox = .write off w v :: rest ∧ step s = .next (hostWrite off w v { s with inbox := rest })) ∨
    (∃ rest, s.inbox = .reset :: rest ∧ step s = .next (applyReset { s with inbox := rest })) ∨
    (∃ rest, (s.inbox = .engine :: rest ∨ (s.inbox = [] ∧ rest = [])) ∧
      ((s.busy = false ∧ step s = .next { s with inbox := rest }) ∨
        (∃ i, s.busy = true ∧ decode s.latch.word = .ok i ∧
          step s = .next (complete (effect i { s with inbox := rest }))) ∨
        (∃ e, s.busy = true ∧ decode s.latch.word = .error e ∧ step s = .fault .illegalLatch))) := by
  cases hin : s.inbox with
  | nil =>
    have hs : ({ s with inbox := [] } : State) = s := by rw [← hin]
    refine .inr (.inr (.inr ⟨[], .inr ⟨rfl, rfl⟩, ?_⟩))
    have hn : nextTurn s = engineTurn { s with inbox := [] } := by rw [hs]; unfold nextTurn; rw [hin]
    exact step_of_engineTurn hn
  | cons e rest =>
    have hn : nextTurn s = serve e { s with inbox := rest } := by unfold nextTurn; rw [hin]
    cases e with
    | read off w => exact .inl ⟨off, w, rest, rfl, by unfold step; rw [hn]; rfl⟩
    | write off w v => exact .inr (.inl ⟨off, w, v, rest, rfl, by unfold step; rw [hn]; rfl⟩)
    | reset => exact .inr (.inr (.inl ⟨rest, rfl, by unfold step; rw [hn]; rfl⟩))
    | engine => exact .inr (.inr (.inr ⟨rest, .inl rfl, step_of_engineTurn hn⟩))

end Sys2Proof.Machine
end

