-- ==== Sys2Proof/Tests/Slice0.lean ====
section
/-! SUPPORT. Small tests with results printed in the spec, and a witness for the hypotheses of each statement. -/

namespace Sys2Proof.Tests

open Sys2Proof Sys2Proof.Machine Sys2Proof.Claims

/-! ## Words of the opcode map (30_encoding.md R91, R93) and well-formedness -/

theorem test_decode_nop : decode 0x00000000#32 = .ok .nop := by decide
theorem test_decode_gfMul : decode 0x00CA5301#32 = .ok (.gfMul 0x53#8 0xCA#8) := by decide
theorem test_decode_gfMul_top : decode 0x00FF0001#32 = .ok (.gfMul 0x00#8 0xFF#8) := by decide
theorem test_decode_rsGen : decode 0x00000002#32 = .ok .rsGen := by decide
theorem test_decode_matInit : decode 0x00000003#32 = .ok .matInit := by decide
theorem test_decode_place : decode 0x00000004#32 = .ok .place := by decide
theorem test_decode_mask : decode 0x00000005#32 = .ok .mask := by decide
theorem test_decode_stampFmt : decode 0x00000006#32 = .ok .stampFmt := by decide
theorem test_decode_stampVer : decode 0x00000007#32 = .ok .stampVer := by decide
theorem test_decode_build : decode 0x00000008#32 = .ok .build := by decide
theorem test_decode_encode : decode 0x00000009#32 = .ok .encode := by decide

theorem test_reserved_opcodes :
    decode 0x0000000A#32 = .error .reservedOpcode ∧ decode 0x000000FF#32 = .error .reservedOpcode ∧
    decode 0xFFFFFFFF#32 = .error .reservedOpcode := by decide

/-- The last two words are those of 95_test_vectors.md V-GF-3. -/
theorem test_reserved_bits :
    decode 0x00000100#32 = .error .reservedBits ∧ decode 0x80000009#32 = .error .reservedBits ∧
    decode 0x01018E01#32 = .error .reservedBits ∧ decode 0xFF000001#32 = .error .reservedBits := by decide

theorem test_table_word : decodeTableWord 32 0x00030201 = some (.gfMul 0x02#8 0x03#8) ∧ decodeTableWord 32 10 = none := by
  decide

/-- One ill-formed line for each check of the notation (30_encoding.md R95, R96). -/
theorem test_wellFormed_refuses :
    (Line.wrb 4096 0).wellFormed = false ∧ (Line.wrb 0 256).wellFormed = false ∧
    (Line.rdb 4096).wellFormed = false ∧ (Line.wrw 4096 0).wellFormed = false ∧ (Line.wrw 2 0).wellFormed = false ∧
    (Line.rdw 4096).wellFormed = false ∧ (Line.rdw 4093).wellFormed = false ∧ (Line.rdm 256 0).wellFormed = false ∧
    (Line.rdm 0 256).wellFormed = false ∧ (Line.cfg 32 0 0).wellFormed = false ∧ (Line.cfg 1 4 0).wellFormed = false ∧
    (Line.cfg 1 0 8).wellFormed = false ∧ (Line.lens 8192 0).wellFormed = false ∧
    (Line.lens 0 256).wellFormed = false := by decide

theorem test_wellFormed_admits :
    (Line.wrb 4095 255).wellFormed = true ∧ (Line.wrw 4092 0).wellFormed = true ∧ (Line.rdm 255 255).wellFormed = true ∧
    (Line.cfg 31 3 7).wellFormed = true ∧ (Line.lens 8191 255).wellFormed = true ∧
    (Line.run (.gfMul 1 2) 3).wellFormed = true := by decide

/-! ## The read-only tables against their constructions -/

/-- The first `n` bytes of the doubling construction (41_gf_rs.md R133). -/
def doublings : Nat → Nat → List Nat
  | 0, _ => []
  | n + 1, x => x :: doublings n (if 128 ≤ x then (2 * x) ^^^ 285 else 2 * x)

theorem test_exp_rom : expRom = doublings 512 1 := by decide +kernel

/-- LOG is the inverse of EXP (41_gf_rs.md R133). -/
theorem test_log_rom : ∀ i, i < 255 → logAt (expAt i) = i := by decide +kernel

/-- 95_test_vectors.md V-GF-2. -/
theorem test_table_entries :
    expAt 8 = 0x1D#8 ∧ expAt 25 = 0x03#8 ∧ expAt 254 = 0x8E#8 ∧ expAt 255 = 0x01#8 ∧ expAt 511 = 0x02#8 ∧
    logAt 0x03#8 = 25 ∧ logAt 0x8E#8 = 254 ∧ logAt 0xFF#8 = 175 := by decide +kernel

/-- The printed rows of GEN: length and coefficients after the leading 1 (41_gf_rs.md R137). -/
def genRows : List (Nat × List Nat) :=
  [(7, [0x7F, 0x7A, 0x9A, 0xA4, 0x0B, 0x44, 0x75])]
  ++ [(10, [0xD8, 0xC2, 0x9F, 0x6F, 0xC7, 0x5E, 0x5F, 0x71, 0x9D, 0xC1])]
  ++ [(13, [0x89, 0x49, 0xE3, 0x11, 0xB1, 0x11, 0x34, 0x0D, 0x2E, 0x2B, 0x53, 0x84, 0x78])]
  ++ [(15, [0x1D, 0xC4, 0x6F, 0xA3, 0x70, 0x4A, 0x0A, 0x69, 0x69, 0x8B, 0x84, 0x97, 0x20, 0x86, 0x1A])]
  ++ [(16, [0x3B, 0x0D, 0x68, 0xBD, 0x44, 0xD1, 0x1E, 0x08, 0xA3, 0x41, 0x29, 0xE5, 0x62, 0x32, 0x24, 0x3B])]
  ++ [(17, [0x77, 0x42, 0x53, 0x78, 0x77, 0x16, 0xC5, 0x53, 0xF9, 0x29, 0x8F, 0x86, 0x55, 0x35, 0x7D, 0x63, 0x4F])]
  ++ [(18, [0xEF, 0xFB, 0xB7, 0x71, 0x95, 0xAF, 0xC7, 0xD7, 0xF0, 0xDC, 0x49, 0x52, 0xAD, 0x4B, 0x20, 0x43,
     0xD9, 0x92])]
  ++ [(20, [0x98, 0xB9, 0xF0, 0x05, 0x6F, 0x63, 0x06, 0xDC, 0x70, 0x96, 0x45, 0x24, 0xBB, 0x16, 0xE4, 0xC6,
     0x79, 0x79, 0xA5, 0xAE])]
  ++ [(22, [0x59, 0xB3, 0x83, 0xB0, 0xB6, 0xF4, 0x13, 0xBD, 0x45, 0x28, 0x1C, 0x89, 0x1D, 0x7B, 0x43, 0xFD,
     0x56, 0xDA, 0xE6, 0x1A, 0x91, 0xF5])]
  ++ [(24, [0x7A, 0x76, 0xA9, 0x46, 0xB2, 0xED, 0xD8, 0x66, 0x73, 0x96, 0xE5, 0x49, 0x82, 0x48, 0x3D, 0x2B,
     0xCE, 0x01, 0xED, 0xF7, 0x7F, 0xD9, 0x90, 0x75])]
  ++ [(26, [0xF6, 0x33, 0xB7, 0x04, 0x88, 0x62, 0xC7, 0x98, 0x4D, 0x38, 0xCE, 0x18, 0x91, 0x28, 0xD1, 0x75,
     0xE9, 0x2A, 0x87, 0x44, 0x46, 0x90, 0x92, 0x4D, 0x2B, 0x5E])]
  ++ [(28, [0xFC, 0x09, 0x1C, 0x0D, 0x12, 0xFB, 0xD0, 0x96, 0x67, 0xAE, 0x64, 0x29, 0xA7, 0x0C, 0xF7, 0x38,
     0x75, 0x77, 0xE9, 0x7F, 0xB5, 0x64, 0x79, 0x93, 0xB0, 0x4A, 0x3A, 0xC5])]
  ++ [(30, [0xD4, 0xF6, 0x4D, 0x49, 0xC3, 0xC0, 0x4B, 0x62, 0x05, 0x46, 0x67, 0xB1, 0x16, 0xD9, 0x8A, 0x33,
     0xB5, 0xF6, 0x48, 0x19, 0x12, 0x2E, 0xE4, 0x4A, 0xD8, 0xC3, 0x0B, 0x6A, 0x82, 0x96])]

/-- The generator polynomials computed from their roots are the printed ones (41_gf_rs.md R137). -/
theorem test_gen_rows :
    genRows.all (fun e => genPoly e.1 == 1 :: e.2.map (BitVec.ofNat 8)) = true ∧
    genRows.map (fun e => e.1) = Config.defaultEcLengths := by decide +kernel

/-- The remainder of a polynomial over GF(2), given as a number, by another of degree `deg`. -/
def polyMod (g deg : Nat) : Nat → Nat → Nat
  | 0, x => x
  | k + 1, x => polyMod g deg k (if x.testBit (deg + k) then x ^^^ (g <<< k) else x)

/-- The 2-bit format field of an EC level (43_stamp.md R200). -/
def ecField (e : Nat) : Nat := [1, 0, 3, 2].getD e 0

/-- The format words are those of the BCH construction (43_stamp.md R204). -/
theorem test_fmt_rom :
    ((List.range 4).all fun e => (List.range 8).all fun m =>
      let d := (ecField e * 8 + m) <<< 10
      fmtWord (BitVec.ofNat 2 e) (BitVec.ofNat 3 m) == BitVec.ofNat 15 ((d ^^^ polyMod 0x537 10 5 d) ^^^ 0x5412)) = true :=
  by decide +kernel

/-- The version words are those of the BCH construction (43_stamp.md R209). -/
theorem test_ver_rom :
    ((List.range' 7 23).all fun v =>
      verWord v == BitVec.ofNat 18 ((v <<< 12) ^^^ polyMod 0x1F25 12 6 (v <<< 12))) = true := by decide +kernel

/-! ## States -/

/-- The reset state with a command accepted (40_command_control.md R112). -/
def running (w : Word) : State := accept w State.reset

/-- A state with MAT_INFO of a version, latched mask and level, and a matrix memory. -/
def withMatrix (v : Nat) (m : Matrix) : State :=
  { State.reset with matVersion := BitVec.ofNat 5 v, matSize := BitVec.ofNat 8 (4 * v + 17), mat := m }

/-- A state whose CW starts with the given bytes and whose latch has the two lengths. -/
def withCodewords (bs : List Byte) (d e : Nat) : State :=
  { State.reset with
    cw := storeBytes [] 0 bs
    latch := { Latch.reset with version := 1, dlen := BitVec.ofNat 13 d, elen := BitVec.ofNat 8 e } }

/-- What an outcome holds, when it is a next state. -/
def after (o : Host.Outcome State Fault Refusal) : State :=
  match o with
  | .next t => t
  | .fault _ => State.reset
  | .refused _ => State.reset

/-! ## One step of each command -/

/-- 40_command_control.md R120. -/
theorem test_nop : statusWord (running 0) = 0x00000001#32 ∧ statusWord (after (step (running 0))) = 0x00000002#32 := by
  decide

/-- 95_test_vectors.md V-GF-1. -/
theorem test_gfMul_products :
    gfMul 0x02#8 0x80#8 = 0x1D#8 ∧ gfMul 0x53#8 0xCA#8 = 0x8F#8 ∧ gfMul 0xFF#8 0xFF#8 = 0xE2#8 ∧
    gfMul 0x8E#8 0x02#8 = 0x01#8 ∧ gfMul 0x00#8 0x07#8 = 0x00#8 := by decide +kernel

/-- 41_gf_rs.md R135: GF_MUL 0x02, 0x03. -/
theorem test_gfMul : gfResultWord (after (step (running 0x00030201#32))) = 0x00000006#32 := by decide +kernel

/-- 95_test_vectors.md V-RS-1. -/
theorem test_rsGen_iso :
    rsRemainder 10 [0x10, 0x20, 0x0C, 0x56, 0x61, 0x80, 0xEC, 0x11, 0xEC, 0x11, 0xEC, 0x11, 0xEC, 0x11, 0xEC, 0x11]
      = [0xA5, 0x24, 0xD4, 0xC1, 0xED, 0x36, 0xC7, 0x87, 0x2C, 0x55] := by decide +kernel

/-- 95_test_vectors.md V-RS-7 and V-RS-8: a supported length writes the remainder, an unsupported one zeros and ECUNSUP. -/
theorem test_rsGen_step :
    (after (exec .rsGen (withCodewords [0xAB, 0xCD] 2 7))).cw
      = storeBytes [] 0 [0xAB, 0xCD, 0x60, 0x61, 0x36, 0x73, 0x74, 0xB1, 0xE7] ∧
    (after (exec .rsGen (withCodewords [0xAB, 0xCD] 2 8))).cw = storeBytes [] 0 [0xAB, 0xCD, 0, 0, 0, 0, 0, 0, 0, 0] ∧
    statusWord (after (exec .rsGen (withCodewords [0xAB, 0xCD] 2 8))) = 0x0000000A#32 := by decide +kernel

/-- The symbol of a row of cells in the kind grids of 95_test_vectors.md. -/
def gridChar (x : MatCell) : Char :=
  match x.kind, x.val with
  | .unset, _ => 'u'
  | .function, true => '#'
  | .function, false => '-'
  | .reserved, true => 'R'
  | .reserved, false => 'r'
  | .data, true => '1'
  | .data, false => '0'

/-- One row of the square as the vectors print it. -/
def gridRow (s : State) (r : Nat) : List Char := (List.range s.matSize.toNat).map fun c => gridChar (loadCell s.mat r c)

/-- The effect of MAT_INIT for version 1 from reset. -/
def initialised : State := matInitEffect 1 State.reset

/-- 95_test_vectors.md V-MI-1, rows 2, 6, 8 and 13, and MAT_INFO. -/
theorem test_matInit :
    gridRow initialised 2 = "#-###-#-ruuuu-#-###-#".toList ∧ gridRow initialised 6 = "#######-#-#-#-#######".toList ∧
    gridRow initialised 8 = "rrrrrr#rruuuurrrrrrrr".toList ∧ gridRow initialised 13 = "--------#uuuuuuuuuuuu".toList ∧
    matInfoWord initialised = 0x00150001#32 := by decide +kernel

/-- 95_test_vectors.md V-MI-3 and 42_matrix.md R165: alignment centres. -/
theorem test_alignment_centres :
    alignmentCentres 2 25 = [6, 18] ∧ alignmentCentres 7 45 = [6, 22, 38] ∧ alignmentCentres 15 77 = [6, 28, 49, 70] ∧
    alignmentCentres 28 129 = [6, 30, 53, 76, 99, 122] := by decide

/-- 95_test_vectors.md V-PL-1: the order of the first cells. -/
theorem test_zigzag :
    (zigzag 21).take 6 = [(20, 20), (20, 19), (19, 20), (19, 19), (18, 20), (18, 19)] ∧
    (zigzag 21).drop 418 = [(20, 1), (20, 0)] := by decide +kernel

/-- 95_test_vectors.md V-PL-2: with CW[0] = 01 only the 8th cell visited, (17, 19), is 1. -/
theorem test_place_bit_order :
    let t := ((zigzag 21).take 9).foldl (placeVisit (streamBit (withCodewords [0x01] 1 0) 1)) ([], 0)
    t.2 = 9 ∧ loadCell t.1 17 19 = ⟨.data, true⟩ ∧ loadCell t.1 20 20 = ⟨.data, false⟩ ∧
    loadCell t.1 16 20 = ⟨.data, false⟩ := by decide +kernel

/-- A square of 3 × 3 cells, too small for a symbol, on which the loops are short. -/
def smallSquare (m : Matrix) (d : Nat) : State :=
  { withCodewords [0x80] d 0 with matVersion := 1, matSize := 3, mat := m }

/-- 42_matrix.md R175 to R177: 6 free cells take 8 stream bits and set TRUNC; a second PLACE finds none. -/
theorem test_place :
    let t := after (exec .place (smallSquare [] 1))
    t.placed = 6 ∧ t.trunc = true ∧ loadCell t.mat 2 2 = ⟨.data, true⟩ ∧ loadCell t.mat 0 1 = ⟨.data, false⟩ ∧
    (after (exec .place (smallSquare [] 0))).trunc = false ∧ (after (exec .place t)).placed = 0 := by decide +kernel

/-- 42_matrix.md R181, R182: mask 0 inverts the DATA cells of even row plus column, and no other cell. -/
theorem test_mask :
    let t := after (exec .mask (smallSquare [(2, [(0, ⟨.reserved, false⟩), (1, ⟨.data, false⟩), (2, ⟨.data, false⟩)])] 0))
    loadCell t.mat 2 0 = ⟨.reserved, false⟩ ∧ loadCell t.mat 2 1 = ⟨.data, false⟩ ∧
    loadCell t.mat 2 2 = ⟨.data, true⟩ := by decide +kernel

/-- 43_stamp.md R202, R203: word 0x5412 for level M and mask 0; bit 0 is 0, bit 1 is 1, bit 14 is 1. -/
theorem test_stampFmt :
    let t := stampFmtEffect 1 0 (withMatrix 1 [])
    loadCell t.mat 0 8 = ⟨.reserved, false⟩ ∧ loadCell t.mat 1 8 = ⟨.reserved, true⟩ ∧
    loadCell t.mat 8 19 = ⟨.reserved, true⟩ ∧ loadCell t.mat 8 0 = ⟨.reserved, true⟩ ∧
    loadCell t.mat 20 8 = ⟨.reserved, true⟩ := by decide +kernel

/-- 43_stamp.md R206: the top-right block of version 7, rows 001 and 010. -/
theorem test_stampVer :
    let t := stampVerEffect (withMatrix 7 [])
    (List.range 3).map (fun k => (loadCell t.mat 0 (34 + k)).val) = [false, false, true] ∧
    (List.range 3).map (fun k => (loadCell t.mat 1 (34 + k)).val) = [false, true, false] ∧
    (stampVerEffect (withMatrix 6 [])).mat = [] := by decide +kernel

/-- 44_composite.md R220: MAT_INFO after BUILD for version 1. -/
theorem test_build : matInfoWord (after (step (running 8))) = 0x00150001#32 := by decide +kernel

/-- 95_test_vectors.md V-RS-5: ENCODE writes the EC codewords that RS_GEN writes. -/
theorem test_encode :
    (after (exec .encode (withCodewords [0x01] 1 7))).cw
      = storeBytes [] 0 [0x01, 0x7F, 0x7A, 0x9A, 0xA4, 0x0B, 0x44, 0x75] := by decide +kernel

/-- 95_test_vectors.md V-RS-10, V-ER-5 in outline, V-GF-3: STATUS and ERRINFO of refused commands. -/
theorem test_refused_commands :
    statusWord (issue 0x01018E01#32 State.reset) = 0x00000104#32 ∧
    (issue 0x01018E01#32 State.reset).errInfo = 0x01018E01#32 ∧
    statusWord (issue 0 (running 0)) = 0x00000205#32 ∧
    statusWord (issue 3 { State.reset with version := 30 }) = 0x00000304#32 ∧
    statusWord (issue 4 { State.reset with dataLen := 8191 }) = 0x00000404#32 ∧
    statusWord (issue 2 { State.reset with dataLen := 4090, ecLen := 10 }) = 0x00000504#32 ∧
    statusWord (issue 2 { State.reset with dataLen := 4086, ecLen := 10 }) = 0x00000001#32 := by decide

/-- 60_exceptions.md R233: the three examples. -/
theorem test_access_errors :
    (hostRead 0x00C#17 .byte State.reset).errInfo = 0x0000000C#32 ∧
    (hostWrite 0x1001#17 .half 0 State.reset).errInfo = 0x81001001#32 ∧
    (hostRead 0x10000#17 .word (running 0)).errInfo = 0x02010000#32 := by decide

/-- 20_memory.md R65: a read that starts in the reserved window returns 0 whatever it covers (log 19). -/
theorem test_reserved_window_edge : (hostRead 0x0FFFF#17 .word (running 0)).readData = some 0 ∧
    (hostRead 0x0FFFF#17 .word (running 0)).err = false := by decide

/-- Every field of reset that the spec gives (10_state.md R52). -/
theorem test_reset_registers :
    statusWord State.reset = 0 ∧ configWord State.reset = 1 ∧ ctrlWord State.reset = 0 ∧ matInfoWord State.reset = 0 ∧
    irq State.reset = false := by decide

/-! ## Witnesses: a state and operands that meet the hypotheses of each statement -/

theorem inv_reset : Inv State.reset :=
  { cw := by decide, mat := by decide, light := fun _ _ _ => rfl, geometry := by decide,
    noError := fun _ => ⟨rfl, rfl⟩, hasError := fun h => (by cases h), busyNotDone := fun h => (by cases h),
    running := fun h => (by cases h) }

theorem inv_running : Inv (running 3) :=
  { cw := by decide, mat := by decide, light := fun _ _ _ => rfl, geometry := by decide,
    noError := fun _ => ⟨rfl, rfl⟩, hasError := fun h => (by cases h), busyNotDone := fun _ => rfl,
    running := fun _ => by decide }

/-- A legal matrix with one DATA cell. -/
def oneData : State := withMatrix 1 (storeCell [] 20 20 ⟨.data, true⟩)

theorem inv_oneData : Inv oneData :=
  { cw := by decide
    mat := by decide
    light := by
      show unsetLight (storeCell [] 20 20 ⟨.data, true⟩)
      exact unsetLight_storeCell (fun _ _ _ => rfl) 20 20 ⟨.data, true⟩ (fun h => by cases h)
    geometry := by decide, noError := fun _ => ⟨rfl, rfl⟩, hasError := fun h => (by cases h)
    busyNotDone := fun h => (by cases h), running := fun h => (by cases h) }

theorem hasMatrix_one : hasMatrix oneData := by unfold hasMatrix; decide
theorem hasMatrix_last : hasMatrix (withMatrix 29 []) := by unfold hasMatrix; decide

theorem witness_IllegalWords :
    State.reset.busy = false ∧ decode 0x0000000A#32 = .error .reservedOpcode ∧
    decode 0x00000109#32 = .error .reservedBits := by decide

theorem witness_EngineTurn :
    (running 0x00030201#32).busy = true ∧ decode (running 0x00030201#32).latch.word = .ok (.gfMul 2 3) ∧
    (running 0x00030201#32).inbox = [] ∧ ((running 0).withFetchWord 32 8).inbox = [.engine] ∧
    decode ((running 0).withFetchWord 32 8).latch.word = .ok .build := by decide

theorem witness_StepServesOneEvent :
    (∃ s : State, s.inbox = [.read 0 .word]) ∧ (∃ s : State, s.inbox = [.write 0x1FFFF#17 .byte 1]) ∧
    (∃ s : State, s.inbox = [.reset]) ∧ (∃ s : State, s.busy = false ∧ s.inbox = [.engine]) ∧
    ∃ s : State, s.busy = false ∧ s.inbox = [] :=
  ⟨⟨{ State.reset with inbox := [.read 0 .word] }, rfl⟩,
   ⟨{ State.reset with inbox := [.write 0x1FFFF#17 .byte 1] }, rfl⟩, ⟨{ State.reset with inbox := [.reset] }, rfl⟩,
   ⟨{ State.reset with inbox := [.engine] }, rfl, rfl⟩, ⟨State.reset, rfl, rfl⟩⟩

theorem witness_FetchedWordRunsNext : 0x00FFFF01 < 2 ^ 32 ∧ decode (BitVec.ofNat 32 0x00FFFF01) = .ok (.gfMul 0xFF 0xFF) := by
  decide

theorem witness_NoStepStops : Inv (running 3) ∧ (running 3).busy = true := ⟨inv_running, rfl⟩

theorem witness_EveryStepKeepsTheStateLegal : Inv (running 3) ∧ ∃ t, step (running 3) = .next t ∧ t ≠ running 3 :=
  ⟨inv_running, _, rfl, fun h => by have := congrArg State.busy h; cases this⟩

theorem witness_RunningCommandCompletes :
    Inv (running 3) ∧ (running 3).busy = true ∧ Event.reset ∉ (running 3).inbox := ⟨inv_running, rfl, by decide⟩

theorem witness_IssueChecksInOrder :
    (running 0).busy = true ∧ State.reset.busy = false ∧ decode 0x0000000A#32 = .error .reservedOpcode ∧
    decode 3 = .ok .matInit ∧ ¬ (1 ≤ (30#5).toNat ∧ (30#5).toNat ≤ 29) ∧ ¬ (1 ≤ (0#5).toNat ∧ (0#5).toNat ≤ 29) ∧
    decode 4 = .ok .place ∧ State.reset.matVersion = 0 ∧ decode 2 = .ok .rsGen ∧ 4096 < (4090#13).toNat + (7#8).toNat ∧
    ¬ 4096 < (4089#13).toNat + (7#8).toNat := by decide

theorem witness_FirstErrorIsKept : State.reset.err = false ∧ (issue 0xFF#32 State.reset).err = true := by decide

theorem witness_NarrowCmdWrite : Width.byte ≠ .word ∧ Width.half ≠ .word := by decide

theorem witness_HostAccessLeavesTheRunningCommandAlone :
    ∃ s t : State, s.busy = true ∧ s.inbox = [.write 0x1000#17 .byte 1] ∧ step s = .next t ∧ t.err = true :=
  ⟨{ running 3 with inbox := [.write 0x1000#17 .byte 1] }, _, rfl, rfl, rfl, rfl⟩

theorem witness_FieldProductLaws : gfMul 0#8 5#8 = 0 := by decide

theorem witness_RsGen :
    (withCodewords [] 4066 30).latch.dlen.toNat + (withCodewords [] 4066 30).latch.elen.toNat = 4096 ∧
    (withCodewords [] 4066 30).latch.elen.toNat ∈ (withCodewords [] 4066 30).ecLengths ∧
    (withCodewords [] 0 0).latch.elen.toNat = 0 ∧
    (withCodewords [] 3841 255).latch.elen.toNat ∉ (withCodewords [] 3841 255).ecLengths ∧
    (withCodewords [] 3841 255).latch.dlen.toNat + (withCodewords [] 3841 255).latch.elen.toNat = 4096 := by decide

theorem witness_CodewordsVanishAtTheRoots :
    (withCodewords [] 4066 30).latch.dlen.toNat + (withCodewords [] 4066 30).latch.elen.toNat ≤ 4096 ∧
    (withCodewords [] 4066 30).latch.elen ≠ 0 ∧
    (withCodewords [] 4066 30).latch.elen.toNat ∈ (withCodewords [] 4066 30).ecLengths := by decide

theorem witness_GeneratorPolynomialHasItsRoots : 255 ≤ 255 ∧ 254 < 255 := by decide

/-- For MatInitSetsTheGeometry, MatInitStampsTheSymbol, PlaceLeavesNoCellUnset and BuildDoesNotReadTheOldMatrix: the first
and the last legal version. -/
theorem witness_MatInit :
    matWf oneData.mat ∧ 1 ≤ (1#5).toNat ∧ (1#5).toNat ≤ 29 ∧ 1 ≤ (29#5).toNat ∧ (29#5).toNat ≤ 29 ∧
    (running 3).latch.version = 1#5 ∧ matWf (running 3).mat ∧ 20 < 4 * (1#5).toNat + 17 ∧ ¬ 21 < 4 * (1#5).toNat + 17 := by
  decide

/-- A cell that was UNSET after MAT_INIT and one that was not. -/
theorem witness_PlaceLeavesNoCellUnset :
    20 < initialised.matSize.toNat ∧ (loadCell initialised.mat 20 20).kind = .unset ∧
    (loadCell initialised.mat 0 0).kind = .function := by decide +kernel

/-- 95_test_vectors.md V-PL-1: cells on both sides of column 6, the first and the last place, an upward and a downward pair,
and the boundaries of the size of version 29. -/
theorem witness_ZigzagVisitsEachCellOnce :
    zigzagPlace 21 20 20 = 0 ∧ zigzagPlace 21 9 19 = 23 ∧ zigzagPlace 21 20 0 = 419 ∧ zigzagPlace 21 9 1 = 396 ∧
    zigzagPlace 21 0 18 = 42 ∧ zigzagPlace 21 20 7 = 253 ∧ zigzagPlace 21 0 5 = 294 ∧ 1 ≤ 1 ∧ 29 ≤ 29 ∧
    132 < 4 * 29 + 17 ∧ ¬ 133 < 4 * 29 + 17 ∧ 7 ≠ 6 ∧ 5 ≠ 6 := by decide

/-- The first and the last version with alignment patterns (42_matrix.md R165). -/
theorem witness_AlignmentCentresAreThePrintedOnes :
    2 ≤ 2 ∧ 29 ≤ 29 ∧ printedCentres 2 = [6, 18] ∧ printedCentres 29 = [6, 30, 54, 78, 102, 126] := by decide

/-- The first free cell of an empty square, and a cell that is not free. -/
theorem witness_PlaceFillsTheFreeCellsInOrder :
    hasMatrix oneData ∧ (freeCells oneData)[0]? = some (20, 19) ∧ (20, 20) ∉ freeCells oneData ∧
    (freeCells oneData).length = 419 := ⟨hasMatrix_one, by decide +kernel⟩

/-- A square of version 1 in which every cell is DATA. -/
def allData : State :=
  withMatrix 1 ((List.range 21).map fun r => (r, (List.range 21).map fun c => (c, ⟨.data, false⟩)))

theorem witness_SecondPlacePlacesNothing : freeCells allData = [] ∧ allData.matSize = 21 := by decide +kernel

theorem witness_MaskInvertsTheDataCells :
    hasMatrix oneData ∧ 20 < oneData.matSize.toNat ∧ (loadCell oneData.mat 20 20).kind = .data ∧
    maskCond oneData.latch.mask 20 20 = true := ⟨hasMatrix_one, by decide +kernel⟩

theorem witness_MaskTwiceRestoresTheMatrix :
    Inv oneData ∧ hasMatrix oneData ∧ ∃ t u, exec .mask oneData = .next t ∧ exec .mask t = .next u :=
  ⟨inv_oneData, hasMatrix_one, _, _, rfl, rfl⟩

theorem witness_MaskAndStampsCommute : hasMatrix oneData ∧ hasMatrix (withMatrix 29 []) := ⟨hasMatrix_one, hasMatrix_last⟩

/-- Boundary bits of the format word, and a cell that none of them lies on. -/
theorem witness_StampFmt :
    hasMatrix oneData ∧ 14 < 15 ∧ ∀ i, i < 15 → (20, 20) ≠ fmtCell1 i ∧ (20, 20) ≠ fmtCell2 i oneData.matSize.toNat :=
  ⟨hasMatrix_one, by decide⟩

/-- A matrix below version 7, one at version 7 and one at version 29, the last version bit, and a cell that none lies on. -/
theorem witness_StampVer :
    hasMatrix oneData ∧ oneData.matVersion.toNat < 7 ∧ hasMatrix (withMatrix 7 []) ∧ 7 ≤ (withMatrix 7 []).matVersion.toNat ∧
    hasMatrix (withMatrix 29 []) ∧ 17 < 18 ∧
    ∀ i, i < 18 → (44, 44) ≠ (i / 3, 45 - 11 + i % 3) ∧ (44, 44) ≠ (45 - 11 + i % 3, i / 3) :=
  ⟨hasMatrix_one, by decide, by unfold hasMatrix; decide, by decide, hasMatrix_last, by decide, by decide⟩

/-- For BuildEqualsItsFiveCommands and the first clause of EncodeEqualsRsGenThenBuild. -/
theorem witness_BuildEqualsItsFiveCommands :
    State.reset.busy = false ∧ 1 ≤ State.reset.version.toNat ∧ State.reset.version.toNat ≤ 29 ∧
    State.reset.dataLen.toNat + State.reset.ecLen.toNat ≤ 4096 := by decide

theorem witness_EncodeWithAnIllegalVersion :
    let s := { State.reset with version := 30 }
    s.busy = false ∧ ¬ (1 ≤ s.version.toNat ∧ s.version.toNat ≤ 29) := by decide

/-- A write that clears everything, followed by the completion of an RS_GEN of an unsupported length or of a PLACE that cuts
its stream: DONE and the warning end 1; the warning that the completion does not set ends 0 (10_state.md R27). -/
theorem witness_StatusWriteClears :
    let s := { withCodewords [] 0 8 with ecunsup := true, trunc := true, done := true }
    let p := { smallSquare [] 1 with ecunsup := true, trunc := true, done := true }
    (after (exec .rsGen (hostWrite 0x00C#17 .word 0x3E#32 s))).ecunsup = true ∧
    (after (exec .rsGen (hostWrite 0x00C#17 .word 0x3E#32 s))).trunc = false ∧
    (after (exec .place (hostWrite 0x00C#17 .word 0x3E#32 p))).trunc = true ∧
    (after (exec .place (hostWrite 0x00C#17 .word 0x3E#32 p))).ecunsup = false ∧
    (after (exec .place (hostWrite 0x00C#17 .word 0x3E#32 p))).done = true := by decide +kernel

theorem witness_OnlyListedFieldsAreWritten :
    (0xFFC#17).toNat < 0x1000 ∧ (0xFFC#17).toNat % 4 = 0 ∧ 0x02C ≤ (0x02C#17).toNat ∧
    (0xFFC#17).toNat ∉ [0x004, 0x008, 0x00C, 0x010, 0x014, 0x018] ∧
    (0x01C#17).toNat ∉ [0x004, 0x008, 0x00C, 0x010, 0x014, 0x018] := by decide

theorem witness_ResultRegistersHaveOneWriter :
    (∃ t, step (running 0x00030201#32) = .next t ∧ t.gfResult ≠ (running 0x00030201#32).gfResult) ∧
    (∃ t, step (running 3) = .next t ∧ t.matVersion ≠ (running 3).matVersion) ∧
    ∀ rest, (running 3).inbox ≠ .reset :: rest :=
  ⟨⟨_, rfl, by decide +kernel⟩, ⟨_, rfl, by decide⟩, fun _ h => by cases h⟩

/-- ECUNSUP and TRUNC set by a completion, DONE set, flags cleared by STATUS, DONE cleared by acceptance. -/
theorem witness_FlagsHaveNoHiddenWriter :
    (∃ s t : State, step s = .next t ∧ s.inbox = [] ∧ s.ecunsup = false ∧ t.ecunsup = true) ∧
    (∃ s t : State, step s = .next t ∧ s.inbox = [] ∧ s.trunc = false ∧ t.trunc = true) ∧
    (∃ s t : State, step s = .next t ∧ s.inbox = [] ∧ s.done = false ∧ t.done = true) ∧
    (∃ s t : State, step s = .next t ∧ s.ecunsup = true ∧ t.ecunsup = false) ∧
    (∃ s t : State, step s = .next t ∧ s.trunc = true ∧ t.trunc = false) ∧
    ∃ s t : State, step s = .next t ∧ s.done = true ∧ t.done = false ∧ t.busy = true :=
  ⟨⟨accept 2 { State.reset with ecLen := 8 }, _, rfl, rfl, rfl, by decide⟩,
   ⟨accept 4 { State.reset with dataLen := 1 }, _, rfl, rfl, rfl, by decide⟩,
   ⟨running 0, _, rfl, rfl, rfl, rfl⟩,
   ⟨{ State.reset with ecunsup := true, inbox := [.write 0x00C#17 .word 8] }, _, rfl, rfl, by decide⟩,
   ⟨{ State.reset with trunc := true, inbox := [.write 0x00C#17 .word 16] }, _, rfl, rfl, by decide⟩,
   ⟨{ State.reset with done := true, inbox := [cmdWrite 0] }, _, rfl, rfl, by decide⟩⟩

/-- Refused and admitted accesses where the regions meet. -/
theorem witness_AccessRulesOfTheRegions :
    ¬ legalAccess 0x00002#17 .word ∧ ¬ legalAccess 0x00FFC#17 .byte ∧ ¬ legalAccess 0x01FFF#17 .half ∧
    ¬ legalAccess 0x1FFFE#17 .word ∧ legalAccess 0x00FFC#17 .word ∧ legalAccess 0x01000#17 .word ∧
    legalAccess 0x02001#17 .word ∧ legalAccess 0x0FFFF#17 .half ∧ legalAccess 0x10000#17 .byte ∧
    0x2000 ≤ (0x02000#17).toNat ∧ (0x0FFFF#17).toNat < 0x10000 := by
  unfold legalAccess; decide

theorem witness_WindowsAreClosedWhileBusy :
    (running 0).busy = true ∧ 0x1000 ≤ (0x1FFF#17).toNat ∧ (0x1FFF#17).toNat < 0x2000 ∧ 0x10000 ≤ (0x10000#17).toNat ∧
    (0xFFC#17).toNat < 0x1000 ∧ (0xFFC#17).toNat % 4 = 0 := by decide

theorem witness_CwWindowStoresAndReturnsBytes :
    State.reset.busy = false ∧ 0x1000 ≤ (0x1FFC#17).toNat ∧ (0x1FFC#17).toNat < 0x2000 ∧
    (0x1FFC#17).toNat % Width.word.bytes = 0 ∧ 3 < Width.word.bytes ∧ (0x1FFF#17).toNat % Width.byte.bytes = 0 := by decide

/-- The last index of each window for each width. -/
theorem witness_ReadsAreLittleEndian :
    State.reset.busy = false ∧ 4095 < 4096 ∧ 2047 < 2048 ∧ 1023 < 1024 ∧ 255 < 256 ∧ 127 < 128 ∧ 63 < 64 := by decide

/-- 20_memory.md R64: a byte and two bytes that RS_GEN wrote (95_test_vectors.md V-RS-5, n = 7). -/
theorem test_narrow_reads :
    let t := after (exec .rsGen (withCodewords [0x01] 1 7))
    (hostRead 0x1001#17 .byte t).readData = some 0x0000007F#32 ∧
    (hostRead 0x1002#17 .half t).readData = some 0x00009A7A#32 := by decide +kernel

theorem witness_MatrixWindowShowsTheSquare :
    oneData.busy = false ∧ 20 < oneData.matSize.toNat ∧ ¬ 21 < oneData.matSize.toNat ∧ 0x10000 ≤ (0x1FFFC#17).toNat ∧
    (0x1FFFC#17).toNat % Width.word.bytes = 0 := by decide

/-- For RegistersAfterReset and ResetAbandonsTheRunningCommand: reset while a command runs. -/
theorem witness_Reset : ∃ s : State, s.inbox = [.reset] ∧ s.busy = true := ⟨{ running 9 with inbox := [.reset] }, rfl, rfl⟩

theorem witness_RunScriptLineCompletesTheCommand :
    ∃ s : State, s.busy = false ∧ s.inbox = (Line.run .matInit 2).events ∧ issueError .matInit s = none :=
  ⟨{ State.reset with inbox := (Line.run .matInit 2).events }, rfl, rfl, by decide⟩

end Sys2Proof.Tests
end

section
/-! PROOF. What a step that answers a next state has done (60_exceptions.md R236). -/

namespace Sys2Proof.Machine

/-- Everything a step that answers a next state has done. -/
theorem step_next_cases {s t : State} (h : step s = .next t) :
    (∃ off w rest, s.inbox = .read off w :: rest ∧ t = hostRead off w { s with inbox := rest }) ∨
    (∃ off w v rest, s.inbox = .write off w v :: rest ∧ t = hostWrite off w v { s with inbox := rest }) ∨
    (∃ rest, s.inbox = .reset :: rest ∧ t = applyReset { s with inbox := rest }) ∨
    (∃ rest, s.busy = false ∧ t = { s with inbox := rest }) ∨
    (∃ i rest, s.busy = true ∧ decode s.latch.word = .ok i ∧ t = complete (effect i { s with inbox := rest })) := by
  rcases step_cases s with ⟨off, w, rest, hin, hs⟩ | ⟨off, w, v, rest, hin, hs⟩ | ⟨rest, hin, hs⟩ |
    ⟨rest, -, ⟨hb, hs⟩ | ⟨i, hb, hd, hs⟩ | ⟨e, -, -, hs⟩⟩ <;> rw [hs] at h <;> cases h
  · exact .inl ⟨off, w, rest, hin, rfl⟩
  · exact .inr (.inl ⟨off, w, v, rest, hin, rfl⟩)
  · exact .inr (.inr (.inl ⟨rest, hin, rfl⟩))
  · exact .inr (.inr (.inr (.inl ⟨rest, hb, rfl⟩)))
  · exact .inr (.inr (.inr (.inr ⟨i, rest, hb, hd, rfl⟩)))

end Sys2Proof.Machine
end

section
/-! PROOF. The invariant: reset establishes it and every operation of a step keeps it (10_state.md, 40_command_control.md
R110 to R115, 60_exceptions.md R232). -/

namespace Sys2Proof.Machine

/-! ## What the invariant reads of a state -/

theorem geometryLegal_congr {s t : State} (hv : t.matVersion = s.matVersion) (hn : t.matSize = s.matSize) :
    geometryLegal t = geometryLegal s := by
  unfold geometryLegal
  rw [hv, hn]

theorem latchRunnable_congr {s t : State} (hl : t.latch = s.latch) (hv : t.matVersion = s.matVersion) :
    latchRunnable t = latchRunnable s := by
  unfold latchRunnable
  rw [hl, hv]

theorem latchRunnable_iff {s : State} {i : Instr} (hd : decode s.latch.word = .ok i) :
    latchRunnable s = true ↔ (needsVersion i = true → versionLegal s.latch.version = true) ∧
      (needsMatrix i = true → s.matVersion ≠ 0) ∧
      (needsBuffer i = true → lengthsFit s.latch.dlen s.latch.elen = true) := by
  unfold latchRunnable
  rw [hd]
  simp only [Bool.and_eq_true, Bool.or_eq_true, Bool.not_eq_true', decide_eq_true_eq, ← Bool.not_eq_true,
    ← imp_iff_not_or, and_assoc]

/-- The invariant names none of CTRL, CONFIG, DATA_LEN, EC_LEN and the schedule's own fields. -/
theorem Inv.setHostFields {s : State} (h : Inv s) {q : Bool} {v : BitVec 5} {e : BitVec 2} {m : BitVec 3} {d : BitVec 13}
    {l : BitVec 8} {inbox : List Event} {readData : Option Word} :
    Inv { s with irqEn := q, version := v, ecl := e, mask := m, dataLen := d, ecLen := l, inbox, readData } :=
  ⟨h.cw, h.mat, h.light, h.geometry, h.noError, h.hasError, h.busyNotDone, h.running⟩

theorem Inv.setCw {s : State} (h : Inv s) {m : Codewords} (hm : cwWf m) : Inv { s with cw := m } :=
  ⟨hm, h.mat, h.light, h.geometry, h.noError, h.hasError, h.busyNotDone, h.running⟩

/-! ## Reset, errors and issue -/

theorem inv_stateReset : Inv State.reset where
  cw := by decide
  mat := by decide
  light := fun _ _ _ => rfl
  geometry := by decide
  noError := fun _ => ⟨rfl, rfl⟩
  hasError := fun h => absurd h Bool.false_ne_true
  busyNotDone := fun h => absurd h Bool.false_ne_true
  running := fun h => absurd h Bool.false_ne_true

theorem inv_applyReset (s : State) : Inv (applyReset s) :=
  have h := inv_stateReset
  ⟨h.cw, h.mat, h.light, h.geometry, h.noError, h.hasError, h.busyNotDone, fun hb => absurd hb Bool.false_ne_true⟩

theorem inv_raiseError {s : State} (h : Inv s) {code : ErrCode} (hc : code ≠ .none) (info : Word) :
    Inv (raiseError code info s) where
  cw := by simpa using h.cw
  mat := by simpa using h.mat
  light := by simpa using h.light
  geometry := by rw [geometryLegal_congr (s := s) (by simp) (by simp)]; exact h.geometry
  noError := by simp
  hasError := by
    intro _
    cases he : s.err with
    | true => simpa [he] using h.hasError he
    | false => simpa [he] using hc
  busyNotDone := by simpa using h.busyNotDone
  running := by
    rw [latchRunnable_congr (s := s) (by simp) (by simp), raiseError_busy]
    exact h.running

/-- The three checks of a legal command at issue (40_command_control.md R110). -/
theorem issueError_eq_none {i : Instr} {s : State} (h : issueError i s = none) :
    (needsVersion i = true → versionLegal s.version = true) ∧ (needsMatrix i = true → s.matVersion ≠ 0) ∧
      (needsBuffer i = true → lengthsFit s.dataLen s.ecLen = true) := by
  unfold issueError at h
  split at h
  · cases h
  · split at h
    · cases h
    · split at h
      · cases h
      · simp_all

theorem inv_accept {s : State} (h : Inv s) {w : Word} {i : Instr} (hd : decode w = .ok i)
    (hi : issueError i s = none) : Inv (accept w s) where
  cw := h.cw
  mat := h.mat
  light := h.light
  geometry := h.geometry
  noError := h.noError
  hasError := h.hasError
  busyNotDone := fun _ => rfl
  running := fun _ => (latchRunnable_iff (s := accept w s) hd).2 (issueError_eq_none hi)

theorem inv_issue {s : State} (h : Inv s) (w : Word) : Inv (issue w s) := by
  rcases issue_cases w s with ⟨-, ⟨i, hd, hi⟩, hs⟩ | ⟨code, hc, hs⟩ <;> rw [hs]
  · exact inv_accept h hd hi
  · exact inv_raiseError h hc w

theorem inv_writeStatus {s : State} (h : Inv s) (w : Word) : Inv (writeStatus w s) where
  cw := h.cw
  mat := h.mat
  light := h.light
  geometry := h.geometry
  noError := by
    rw [writeStatus_err, writeStatus_errCode, writeStatus_errInfo]
    cases w.getLsbD 2 with
    | true => exact fun _ => ⟨rfl, rfl⟩
    | false => simpa using h.noError
  hasError := by
    rw [writeStatus_err, writeStatus_errCode]
    cases w.getLsbD 2 with
    | true => simp
    | false => simpa using h.hasError
  busyNotDone := by
    intro hb
    rw [writeStatus_done, h.busyNotDone hb, Bool.false_and]
  running := h.running

/-! ## Host accesses -/

theorem inv_writeRegister {s : State} (h : Inv s) (off : Nat) (v : Word) : Inv (writeRegister off v s) := by
  rcases writeRegister_cases off v s with hs | hs | hs | hs | hs | hs | hs <;> rw [hs]
  · exact h.setHostFields
  · exact inv_issue h v
  · exact inv_writeStatus h v
  · exact h.setHostFields
  · exact h.setHostFields
  · exact h.setHostFields
  · exact h

theorem inv_hostRead {s : State} (h : Inv s) (off : Offset) (w : Width) : Inv (hostRead off w s) := by
  rcases hostRead_cases off w s with ⟨-, hs⟩ | ⟨-, hs⟩ <;> rw [hs]
  · exact (inv_raiseError h (by decide) _).setHostFields
  · exact h.setHostFields

theorem inv_hostWrite {s : State} (h : Inv s) (off : Offset) (w : Width) (v : Word) : Inv (hostWrite off w v s) := by
  rcases hostWrite_cases off w v s with ⟨-, hs⟩ | ⟨-, -, hs⟩ | ⟨-, -, -, hs⟩ | ⟨-, hs⟩ <;> rw [hs]
  · exact inv_raiseError h (by decide) _
  · exact inv_writeRegister h _ v
  · exact h.setCw (cwWf_storeBytes _ h.cw _)
  · exact h

/-! ## Completion of a command -/

/-- The commands that set MAT_INFO are those that begin with the steps of MAT_INIT, and so need a version (10_state.md
R35). -/
theorem effect_matVersion (i : Instr) (s : State) :
    (effect i s).matVersion = if needsVersion i then s.latch.version else s.matVersion := by
  cases i <;> simp [effect, encodeEffect, buildEffect, needsVersion]

theorem effect_matSize (i : Instr) (s : State) :
    (effect i s).matSize = if needsVersion i then BitVec.ofNat 8 (sizeOf s.latch.version) else s.matSize := by
  cases i <;> simp [effect, encodeEffect, buildEffect, needsVersion]

/-- 133 cells a side fit the 8 bits of MAT_SIZE (10_state.md R35). -/
theorem toNat_sizeOf {v : BitVec 5} (h : versionLegal v = true) : (BitVec.ofNat 8 (sizeOf v)).toNat = sizeOf v := by
  simp only [versionLegal, Config.maxVersion, Bool.and_eq_true, decide_eq_true_eq] at h
  simp only [BitVec.toNat_ofNat, sizeOf]
  omega

theorem geometryLegal_effect (i : Instr) {s : State} (h : geometryLegal s = true)
    (hv : needsVersion i = true → versionLegal s.latch.version = true) : geometryLegal (effect i s) = true := by
  cases hb : needsVersion i with
  | true => simp [geometryLegal, effect_matVersion, effect_matSize, hb, hv hb, toNat_sizeOf (hv hb)]
  | false => rwa [geometryLegal_congr (s := s) (by simp [effect_matVersion, hb]) (by simp [effect_matSize, hb])]

theorem unsetLight_effect (i : Instr) {s : State} (hm : matWf s.mat) (h : unsetLight s.mat) :
    unsetLight (effect i s).mat := by
  cases i with
  | nop | gfMul a b => exact h
  | rsGen => simpa [effect] using h
  | matInit =>
    simp only [effect, matInitEffect_mat]
    exact unsetLight_storeCells _ (unsetLight_clearSquare _ hm h) fun w hw => initWrites_kind hw
  | place =>
    simp only [effect, placeEffect_mat]
    exact unsetLight_placeLoop _ _ h
  | mask =>
    simp only [effect, maskEffect_mat]
    exact unsetLight_maskFold _ _ h
  | stampFmt =>
    simp only [effect, stampFmtEffect_mat]
    exact unsetLight_storeCells _ h fun w hw => by rw [fmtWrites_kind hw]; decide
  | stampVer =>
    simp only [effect, stampVerEffect_mat]
    split
    · exact unsetLight_storeCells _ h fun w hw => by rw [verWrites_kind hw]; decide
    · exact h
  | build => exact unsetLight_buildEffect _ hm h
  | encode => exact unsetLight_buildEffect _ (by rwa [rsGenEffect_mat]) (by rwa [rsGenEffect_mat])

/-- A running command that sets MAT_INFO has a legal version in its latch (40_command_control.md R115). -/
theorem versionLegal_of_latchRunnable {s : State} {i : Instr} (h : latchRunnable s = true)
    (hd : decode s.latch.word = .ok i) : needsVersion i = true → versionLegal s.latch.version = true :=
  ((latchRunnable_iff hd).1 h).1

theorem inv_complete_effect {s : State} (h : Inv s) {i : Instr} (hb : s.busy = true)
    (hd : decode s.latch.word = .ok i) : Inv (complete (effect i s)) := by
  obtain ⟨-, herr, -, hcode, hinfo, -⟩ := effect_frame i s
  exact
    { cw := cwWf_effect i h.cw
      mat := matWf_effect i h.mat
      light := unsetLight_effect i h.mat h.light
      geometry := geometryLegal_effect i h.geometry (versionLegal_of_latchRunnable (h.running hb) hd)
      noError := by simpa only [complete_err, complete_errCode, complete_errInfo, herr, hcode, hinfo] using h.noError
      hasError := by simpa only [complete_err, complete_errCode, herr, hcode] using h.hasError
      busyNotDone := fun hb' => absurd hb' Bool.false_ne_true
      running := fun hb' => absurd hb' Bool.false_ne_true }

end Sys2Proof.Machine

namespace Sys2Proof.Proofs

open Sys2Proof.Machine

/-- Settles O8, field by field of the invariant. -/
theorem resetIsLegal : Obligations.ResetIsLegal := inv_stateReset

/-- Settles O9: each of the five things a step can do keeps the invariant. -/
theorem everyStepKeepsTheStateLegal : Obligations.EveryStepKeepsTheStateLegal := by
  intro s t h hs
  rcases step_next_cases hs with ⟨off, w, rest, -, rfl⟩ | ⟨off, w, v, rest, -, rfl⟩ | ⟨rest, -, rfl⟩ |
    ⟨rest, -, rfl⟩ | ⟨i, rest, hb, hd, rfl⟩
  · exact inv_hostRead h.setHostFields off w
  · exact inv_hostWrite h.setHostFields off w v
  · exact inv_applyReset _
  · exact h.setHostFields
  · exact inv_complete_effect h.setHostFields hb hd

end Sys2Proof.Proofs
end

section
/-! PROOF. Commands and the fields they do not read (10_state.md R39, R40; 40_command_control.md R116), and what follows
for a STATUS write in the cycle of a completion (10_state.md R27). -/

namespace Sys2Proof.Machine

/-! ## The fields no command reads -/

/-- `s` with the registers that no command reads taken from `u`: CTRL, CONFIG, DATA_LEN, EC_LEN, DONE and the error record;
and with the warnings of `u` beside its own, since a command sets a warning and never reads or clears one. -/
def overlay (u s : State) : State :=
  { s with
    irqEn := u.irqEn
    done := u.done
    err := u.err
    ecunsup := s.ecunsup || u.ecunsup
    trunc := s.trunc || u.trunc
    errMult := u.errMult
    errCode := u.errCode
    errInfo := u.errInfo
    version := u.version
    ecl := u.ecl
    mask := u.mask
    dataLen := u.dataLen
    ecLen := u.ecLen }

theorem overlay_self (s : State) : overlay s s = s := by simp [overlay]

theorem rsGenEffect_overlay (k n : Nat) (u s : State) :
    rsGenEffect k n (overlay u s) = overlay u (rsGenEffect k n s) := by
  have hn : (overlay u s).ecLengths = s.ecLengths := rfl
  unfold rsGenEffect
  rw [hn]
  split
  · rfl
  · split <;> rfl

theorem matInitEffect_overlay (v : BitVec 5) (u s : State) :
    matInitEffect v (overlay u s) = overlay u (matInitEffect v s) := by
  simp only [matInitEffect, overlay]

theorem placeEffect_overlay (N : Nat) (u s : State) : placeEffect N (overlay u s) = overlay u (placeEffect N s) := by
  have hp : placeLoop (overlay u s).matSize.toNat (streamBit (overlay u s) N) (overlay u s).mat =
      placeLoop s.matSize.toNat (streamBit s N) s.mat := rfl
  simp only [placeEffect, hp]
  simp only [overlay, Bool.or_right_comm]

theorem maskEffect_overlay (id : BitVec 3) (u s : State) :
    maskEffect id (overlay u s) = overlay u (maskEffect id s) := by
  simp only [maskEffect, overlay]

theorem stampFmtEffect_overlay (e : BitVec 2) (m : BitVec 3) (u s : State) :
    stampFmtEffect e m (overlay u s) = overlay u (stampFmtEffect e m s) := by
  simp only [stampFmtEffect, overlay]

theorem stampVerEffect_overlay (u s : State) : stampVerEffect (overlay u s) = overlay u (stampVerEffect s) := by
  have hv : (overlay u s).matVersion = s.matVersion := rfl
  unfold stampVerEffect
  rw [hv]
  split <;> rfl

theorem buildEffect_overlay (l : Latch) (u s : State) : buildEffect l (overlay u s) = overlay u (buildEffect l s) := by
  simp only [buildEffect, matInitEffect_overlay, placeEffect_overlay, maskEffect_overlay, stampFmtEffect_overlay,
    stampVerEffect_overlay]

/-- What a command does is the same whatever the fields it does not read hold, and it leaves them. -/
theorem effect_overlay (i : Instr) (u s : State) : effect i (overlay u s) = overlay u (effect i s) := by
  cases i with
  | nop | gfMul a b => rfl
  | rsGen => exact rsGenEffect_overlay _ _ u s
  | matInit => exact matInitEffect_overlay _ u s
  | place => exact placeEffect_overlay _ u s
  | mask => exact maskEffect_overlay _ u s
  | stampFmt => exact stampFmtEffect_overlay _ _ u s
  | stampVer => exact stampVerEffect_overlay u s
  | build => exact buildEffect_overlay _ u s
  | encode =>
    calc encodeEffect s.latch (overlay u s)
      _ = buildEffect s.latch (overlay u (rsGenEffect s.latch.dlen.toNat s.latch.elen.toNat s)) := by
        rw [encodeEffect, rsGenEffect_overlay]
      _ = overlay u (encodeEffect s.latch s) := buildEffect_overlay _ u _

theorem effect_done (i : Instr) (s : State) : (effect i s).done = s.done := by
  cases i <;> simp [effect, encodeEffect, buildEffect]

/-- A command works from its latch: its effect commutes with a change of CTRL, CONFIG, DATA_LEN and EC_LEN. -/
theorem effect_setConfig (i : Instr) (s : State) (v : BitVec 5) (e : BitVec 2) (m : BitVec 3) (d : BitVec 13)
    (l : BitVec 8) (q : Bool) :
    effect i { s with version := v, ecl := e, mask := m, dataLen := d, ecLen := l, irqEn := q } =
      { effect i s with version := v, ecl := e, mask := m, dataLen := d, ecLen := l, irqEn := q } := by
  obtain ⟨-, herr, hmult, hcode, hinfo, -⟩ := effect_frame i s
  have ho := effect_overlay i
    { s with version := v, ecl := e, mask := m, dataLen := d, ecLen := l, irqEn := q, ecunsup := false, trunc := false } s
  simpa only [overlay, Bool.or_false, ← herr, ← hmult, ← hcode, ← hinfo, ← effect_done i s] using ho

/-- A STATUS write before a command lies on top of the state whose warnings are 0. -/
theorem effect_writeStatus (i : Instr) (w : Word) (s : State) :
    effect i (writeStatus w s) = overlay (writeStatus w s) (effect i { s with ecunsup := false, trunc := false }) :=
  effect_overlay i (writeStatus w s) { s with ecunsup := false, trunc := false }

/-- A command never clears a warning (10_state.md R50). -/
theorem effect_ecunsup_of_set (i : Instr) {s : State} (h : s.ecunsup = true) : (effect i s).ecunsup = true := by
  have ho := congrArg State.ecunsup (effect_overlay i s s)
  rw [overlay_self] at ho
  rw [ho]
  simp [overlay, h]

theorem effect_trunc_of_set (i : Instr) {s : State} (h : s.trunc = true) : (effect i s).trunc = true := by
  have ho := congrArg State.trunc (effect_overlay i s s)
  rw [overlay_self] at ho
  rw [ho]
  simp [overlay, h]

/-! ## What commands leave unchanged -/

theorem effect_gfResult {i : Instr} (h : ∀ a b, i ≠ .gfMul a b) (s : State) : (effect i s).gfResult = s.gfResult := by
  cases i with
  | gfMul a b => exact absurd rfl (h a b)
  | _ => simp [effect, encodeEffect, buildEffect]

theorem effect_ecunsup {i : Instr} (h : i ∉ [Instr.rsGen, .encode]) (s : State) :
    (effect i s).ecunsup = s.ecunsup := by
  cases i with
  | rsGen | encode => exact absurd (by simp) h
  | _ => simp [effect, buildEffect]

theorem effect_trunc {i : Instr} (h : i ∉ [Instr.place, .build, .encode]) (s : State) :
    (effect i s).trunc = s.trunc := by
  cases i with
  | place | build | encode => exact absurd (by simp) h
  | _ => simp [effect]

theorem needsVersion_iff (i : Instr) : needsVersion i = true ↔ i ∈ [Instr.matInit, .build, .encode] := by
  cases i <;> simp [needsVersion]

theorem effect_matInfo {i : Instr} (h : i ∉ [Instr.matInit, .build, .encode]) (s : State) :
    (effect i s).matVersion = s.matVersion ∧ (effect i s).matSize = s.matSize := by
  have hn : ¬ needsVersion i = true := fun hn => h ((needsVersion_iff i).1 hn)
  exact ⟨by rw [effect_matVersion, if_neg hn], by rw [effect_matSize, if_neg hn]⟩

end Sys2Proof.Machine
end

section
/-! PROOF. Accesses to the register space (20_memory.md R62, R65; 10_state.md R22 to R38). -/

namespace Sys2Proof.Machine

theorem region_registers {off : Offset} (h : off.toNat < 0x1000) : region off = .registers := by
  unfold region
  rw [if_pos h]

theorem accessRefused_register {off : Offset} (h : off.toNat < 0x1000) (w : Width) (s : State) :
    accessRefused off w s = !(decide (w = .word) && decide (off.toNat % 4 = 0)) := by
  simp [accessRefused, accessAligned, windowClosed, region_registers h]

/-- An aligned 4-byte read of the register space returns the register's word and does nothing else, busy or not. -/
theorem hostRead_register {off : Offset} {x : Word} {s : State} (h : off.toNat < 0x1000) (h4 : off.toNat % 4 = 0)
    (hx : readRegister off.toNat s = x) : hostRead off .word s = { s with readData := some x } := by
  simp [hostRead, accessRefused_register h, h4, readValue, region_registers h, hx]

/-- An aligned 4-byte write of the register space reaches the register, busy or not. -/
theorem hostWrite_register {off : Offset} (h : off.toNat < 0x1000) (h4 : off.toNat % 4 = 0) (v : Word) (s : State) :
    hostWrite off .word v s = writeRegister off.toNat v s := by
  simp [hostWrite, accessRefused_register h, h4, region_registers h]

theorem writeRegister_ignored {off : Nat} (h : off ∉ [0x004, 0x008, 0x00C, 0x010, 0x014, 0x018]) (v : Word)
    (s : State) : writeRegister off v s = s := by
  unfold writeRegister
  split
  case h_7 => rfl
  all_goals exact absurd (by decide) h

theorem readRegister_reserved {off : Nat} (h : 0x02C ≤ off) (s : State) : readRegister off s = 0 := by
  unfold readRegister
  split
  case h_11 => rfl
  all_goals exact absurd h (by decide)

/-! ## The words -/

theorem zero_append_eq_setWidth {m n : Nat} (x : BitVec n) : 0#m ++ x = x.setWidth (m + n) := by
  ext i hi
  simp only [BitVec.getElem_append, BitVec.getElem_zero, BitVec.getElem_setWidth]
  split
  · exact (BitVec.getLsbD_eq_getElem _).symm
  · exact (BitVec.getLsbD_of_ge x i (by omega)).symm

theorem configWord_eq (s : State) :
    configWord s = (s.mask.setWidth 32 <<< 12) ||| (s.ecl.setWidth 32 <<< 8) ||| s.version.setWidth 32 := by
  unfold configWord
  grind

theorem matInfoWord_eq (s : State) :
    matInfoWord s = (s.matSize.setWidth 32 <<< 16) ||| s.matVersion.setWidth 32 := by
  unfold matInfoWord
  grind

theorem statusWord_flags (s : State) :
    (statusWord s).getLsbD 0 = s.busy ∧ (statusWord s).getLsbD 1 = s.done ∧ (statusWord s).getLsbD 2 = s.err ∧
    (statusWord s).getLsbD 3 = s.ecunsup ∧ (statusWord s).getLsbD 4 = s.trunc ∧
    (statusWord s).getLsbD 5 = s.errMult := by
  simp only [statusWord, bit, BitVec.getLsbD_append]
  simp

theorem statusWord_errCode (s : State) : (statusWord s).extractLsb' 8 8 = s.errCode.toByte := by
  unfold statusWord
  repeat rw [BitVec.extractLsb'_append_eq_of_le (by decide)]
  exact BitVec.extractLsb'_append_eq_right

theorem statusWord_reserved (s : State) :
    (statusWord s).extractLsb' 6 2 = 0#2 ∧ (statusWord s).extractLsb' 16 16 = 0#16 := by
  unfold statusWord
  constructor <;> repeat rw [BitVec.extractLsb'_append_eq_of_le (by decide)]
  · exact BitVec.extractLsb'_append_eq_right
  · rfl

end Sys2Proof.Machine
end

section
/-! PROOF. What a host access and a step leave of the flags and the result registers (10_state.md R34, R35, R50). -/

namespace Sys2Proof.Machine

/-- The result registers that only commands write: GF_RESULT and MAT_INFO. -/
def SameResults (s t : State) : Prop :=
  t.gfResult = s.gfResult ∧ t.matVersion = s.matVersion ∧ t.matSize = s.matSize

/-- BUSY, DONE and the warnings ECUNSUP and TRUNC. -/
def SameFlags (s t : State) : Prop :=
  t.busy = s.busy ∧ t.done = s.done ∧ t.ecunsup = s.ecunsup ∧ t.trunc = s.trunc

theorem and_not_eq_ite (a b : Bool) : (a && !b) = if b = true then false else a := by
  cases b <;> simp

theorem sameResults_raiseError (code : ErrCode) (info : Word) (s : State) : SameResults s (raiseError code info s) := by
  simp [SameResults]

theorem sameFlags_raiseError (code : ErrCode) (info : Word) (s : State) : SameFlags s (raiseError code info s) := by
  simp [SameFlags]

theorem sameResults_issue (w : Word) (s : State) : SameResults s (issue w s) := by
  rcases issue_cases w s with ⟨-, -, hs⟩ | ⟨code, -, hs⟩ <;> rw [hs]
  · exact ⟨rfl, rfl, rfl⟩
  · exact sameResults_raiseError code w s

theorem sameResults_hostRead (off : Offset) (w : Width) (s : State) : SameResults s (hostRead off w s) := by
  rcases hostRead_cases off w s with ⟨-, hs⟩ | ⟨-, hs⟩ <;> rw [hs]
  · exact sameResults_raiseError .busAccess _ s
  · exact ⟨rfl, rfl, rfl⟩

theorem sameFlags_hostRead (off : Offset) (w : Width) (s : State) : SameFlags s (hostRead off w s) := by
  rcases hostRead_cases off w s with ⟨-, hs⟩ | ⟨-, hs⟩ <;> rw [hs]
  · exact sameFlags_raiseError .busAccess _ s
  · exact ⟨rfl, rfl, rfl, rfl⟩

theorem sameResults_writeRegister (off : Nat) (v : Word) (s : State) : SameResults s (writeRegister off v s) := by
  rcases writeRegister_cases off v s with hs | hs | hs | hs | hs | hs | hs <;> rw [hs]
  case inr.inl => exact sameResults_issue v s
  all_goals exact ⟨rfl, rfl, rfl⟩

theorem sameResults_hostWrite (off : Offset) (w : Width) (v : Word) (s : State) :
    SameResults s (hostWrite off w v s) := by
  rcases hostWrite_cases off w v s with ⟨-, hs⟩ | ⟨-, -, hs⟩ | ⟨-, -, -, hs⟩ | ⟨-, hs⟩ <;> rw [hs]
  · exact sameResults_raiseError .busAccess _ s
  · exact sameResults_writeRegister _ v s
  · exact ⟨rfl, rfl, rfl⟩
  · exact ⟨rfl, rfl, rfl⟩

/-- Of the registers only STATUS and CMD touch the flags, CMD only by acceptance (10_state.md R27, R50). -/
theorem writeRegister_flags (off : Nat) (v : Word) (s : State) :
    (off = 0x00C ∧ writeRegister off v s = writeStatus v s) ∨ (off = 0x008 ∧ writeRegister off v s = accept v s) ∨
      SameFlags s (writeRegister off v s) := by
  unfold writeRegister
  split
  case h_2 =>
    rcases issue_cases v s with ⟨-, -, hs⟩ | ⟨code, -, hs⟩ <;> rw [hs]
    · exact .inr (.inl ⟨rfl, rfl⟩)
    · exact .inr (.inr (sameFlags_raiseError code v s))
  case h_3 => exact .inl ⟨rfl, rfl⟩
  all_goals exact .inr (.inr ⟨rfl, rfl, rfl, rfl⟩)

/-- The register space takes 4-byte accesses only (20_memory.md R65). -/
theorem width_of_register {off : Offset} {w : Width} {s : State} (h : accessRefused off w s = false)
    (hr : region off = .registers) : w = .word := by
  simp only [accessRefused, accessAligned, hr, Bool.or_eq_false_iff, Bool.not_eq_false', Bool.and_eq_true,
    decide_eq_true_eq] at h
  exact h.1.1

theorem hostWrite_flags (off : Offset) (w : Width) (v : Word) (s : State) :
    (off = 0x00C#17 ∧ w = .word ∧ hostWrite off w v s = writeStatus v s) ∨
      (off = 0x008#17 ∧ w = .word ∧ hostWrite off w v s = accept v s) ∨ SameFlags s (hostWrite off w v s) := by
  rcases hostWrite_cases off w v s with ⟨-, hs⟩ | ⟨ha, hr, hs⟩ | ⟨-, -, -, hs⟩ | ⟨-, hs⟩ <;> rw [hs]
  · exact .inr (.inr (sameFlags_raiseError .busAccess _ s))
  · have hw := width_of_register ha hr
    rcases writeRegister_flags off.toNat v s with ⟨ho, h⟩ | ⟨ho, h⟩ | h
    · exact .inl ⟨BitVec.eq_of_toNat_eq ho, hw, h⟩
    · exact .inr (.inl ⟨BitVec.eq_of_toNat_eq ho, hw, h⟩)
    · exact .inr (.inr h)
  · exact .inr (.inr ⟨rfl, rfl, rfl, rfl⟩)
  · exact .inr (.inr ⟨rfl, rfl, rfl, rfl⟩)

/-- A step that serves no reset leaves GF_RESULT and MAT_INFO, or completes the running command. -/
theorem step_results {s t : State} (h : step s = .next t) (hr : ∀ rest, s.inbox ≠ .reset :: rest) :
    SameResults s t ∨
      ∃ i rest, s.busy = true ∧ decode s.latch.word = .ok i ∧ t = complete (effect i { s with inbox := rest }) := by
  rcases step_next_cases h with ⟨off, w, rest, -, rfl⟩ | ⟨off, w, v, rest, -, rfl⟩ | ⟨rest, hin, -⟩ |
    ⟨rest, -, rfl⟩ | hc
  · exact .inl (sameResults_hostRead off w { s with inbox := rest })
  · exact .inl (sameResults_hostWrite off w v { s with inbox := rest })
  · exact absurd hin (hr rest)
  · exact .inl ⟨rfl, rfl, rfl⟩
  · exact .inr hc

/-- A step that serves no reset leaves the flags, writes STATUS, accepts a command, or completes the running one. -/
theorem step_flags {s t : State} (h : step s = .next t) (hr : ∀ rest, s.inbox ≠ .reset :: rest) :
    SameFlags s t ∨
      (∃ w rest, s.inbox = .write 0x00C#17 .word w :: rest ∧ t = writeStatus w { s with inbox := rest }) ∨
      (∃ w rest, s.inbox = .write 0x008#17 .word w :: rest ∧ t = accept w { s with inbox := rest }) ∨
      ∃ i rest, s.busy = true ∧ decode s.latch.word = .ok i ∧ t = complete (effect i { s with inbox := rest }) := by
  rcases step_next_cases h with ⟨off, w, rest, -, rfl⟩ | ⟨off, w, v, rest, hin, rfl⟩ | ⟨rest, hin, -⟩ |
    ⟨rest, -, rfl⟩ | hc
  · exact .inl (sameFlags_hostRead off w { s with inbox := rest })
  · rcases hostWrite_flags off w v { s with inbox := rest } with ⟨rfl, rfl, hs⟩ | ⟨rfl, rfl, hs⟩ | hs
    · exact .inr (.inl ⟨v, rest, hin, hs⟩)
    · exact .inr (.inr (.inl ⟨v, rest, hin, hs⟩))
    · exact .inl hs
  · exact absurd hin (hr rest)
  · exact .inl ⟨rfl, rfl, rfl, rfl⟩
  · exact .inr (.inr (.inr hc))

end Sys2Proof.Machine

namespace Sys2Proof.Proofs

open Sys2Proof.Machine

/-- Settles O17: the changed registers lie on top of the state, and a command's effect commutes with such an overlay. -/
theorem commandsReadOnlyTheirLatch : Obligations.CommandsReadOnlyTheirLatch := by
  intro i s v e m d l q
  refine ⟨_, exec_eq i s, ?_⟩
  rw [exec_eq, effect_setConfig]
  rfl

/-- Settles O44: the written STATUS lies on top of the state with both warnings 0, so the completion's sets are the same
with and without the write. -/
theorem statusWriteClears : Obligations.StatusWriteClears := by
  intro w s
  have hw : hostWrite 0x00C#17 .word w s = writeStatus w s := hostWrite_register (by decide) (by decide) w s
  rw [hw]
  refine ⟨?_, fun i => ⟨_, _, exec_eq i _, exec_eq i _, rfl, ?_, ?_⟩⟩
  · simp only [writeStatus, and_not_eq_ite]
  all_goals
    rw [effect_writeStatus]
    exact Bool.or_comm ..

/-- Settles O48: only a completion can change a result register, and only that of a command that writes it. -/
theorem resultRegistersHaveOneWriter : Obligations.ResultRegistersHaveOneWriter := by
  intro s t h hr
  rcases step_results h hr with ⟨hg, hv, hn⟩ | ⟨i, rest, hb, hd, rfl⟩
  · exact ⟨fun hne => absurd hg hne, fun hne => absurd hne (by simp [hv, hn])⟩
  · refine ⟨fun hne => ⟨hb, ?_⟩, fun hne => ⟨hb, i, hd, ?_⟩⟩
    · by_contra hi
      exact hne (effect_gfResult (fun a b hab => hi ⟨a, b, by rw [hd, hab]⟩) _)
    · by_contra hi
      obtain ⟨hv, hn⟩ := effect_matInfo hi { s with inbox := rest }
      exact hne.elim (fun h => h hv) (fun h => h hn)

/-- Settles O49: one case for each thing that a step can do to the flags; a completion sets only the warnings of its own
command and clears none. -/
theorem flagsHaveNoHiddenWriter : Obligations.FlagsHaveNoHiddenWriter := by
  intro s t h hr
  rcases step_flags h hr with ⟨-, hd, he, ht⟩ | ⟨w, rest, hin, rfl⟩ | ⟨w, rest, hin, rfl⟩ | ⟨i, rest, hb, hd, rfl⟩
  · simp +contextual [hd, he, ht]
  · refine ⟨?_, ?_, ?_, fun _ => ⟨w, rest, hin⟩, fun _ => ⟨w, rest, .inl hin⟩⟩ <;> simp +contextual
  · refine ⟨?_, ?_, ?_, ?_, fun _ => ⟨w, rest, .inr ⟨hin, rfl⟩⟩⟩ <;> simp +contextual
  · refine ⟨fun h0 h1 => ⟨hb, i, hd, ?_⟩, fun h0 h1 => ⟨hb, i, hd, ?_⟩, fun _ _ => ⟨hb, rfl⟩, ?_, ?_⟩
    · by_contra hi
      simp [effect_ecunsup hi, h0] at h1
    · by_contra hi
      simp [effect_trunc hi, h0] at h1
    · rintro (⟨h1, h0⟩ | ⟨h1, h0⟩)
      · simp [effect_ecunsup_of_set i (s := { s with inbox := rest }) h1] at h0
      · simp [effect_trunc_of_set i (s := { s with inbox := rest }) h1] at h0
    · simp

/-- Settles O45, field by field. -/
theorem statusFieldsStandAtTheirBits : Obligations.StatusFieldsStandAtTheirBits := by
  intro s
  obtain ⟨hbusy, hdone, herr, hecunsup, htrunc, herrMult⟩ := statusWord_flags s
  obtain ⟨hmid, hhigh⟩ := statusWord_reserved s
  exact ⟨hostRead_register (by decide) (by decide) rfl, hbusy, hdone, herr, hecunsup, htrunc, herrMult, hmid,
    statusWord_errCode s, hhigh⟩

/-- Settles O46: each read returns the word of its register, whose fields stand at their bits. -/
theorem registersReadAsMapped : Obligations.RegistersReadAsMapped := by
  intro s
  refine ⟨?_, ?_, ?_, ?_, ?_, ?_, ?_, ?_, ?_, ?_⟩ <;> refine hostRead_register (by decide) (by decide) ?_
  · rfl
  · exact zero_append_eq_setWidth (BitVec.ofBool s.irqEn)
  · rfl
  · exact configWord_eq s
  · exact zero_append_eq_setWidth s.dataLen
  · exact zero_append_eq_setWidth s.ecLen
  · exact zero_append_eq_setWidth s.gfResult
  · exact matInfoWord_eq s
  · exact zero_append_eq_setWidth s.placed
  · rfl

/-- Settles O47: an aligned access reaches its register, and no register stands at the other offsets. -/
theorem onlyListedFieldsAreWritten : Obligations.OnlyListedFieldsAreWritten := by
  intro off v s
  refine ⟨fun h h4 hoff => ?_, fun hlo h h4 => ?_, ?_, ?_, ?_, ?_⟩
  · rw [hostWrite_register h h4, writeRegister_ignored hoff]
  · exact hostRead_register h h4 (readRegister_reserved hlo s)
  all_goals exact hostWrite_register (by decide) (by decide) v s

end Sys2Proof.Proofs
end

section
/-! PROOF. The region of an offset, and which accesses are refused (20_memory.md R62, R65, R66). -/

namespace Sys2Proof.Machine

open Sys2Proof.Claims

section

variable {off : Offset} {w : Width} {s : State}

theorem region_codewords (h : 0x1000 ≤ off.toNat) (h' : off.toNat < 0x2000) : region off = .codewords := by
  unfold region
  rw [if_neg (by omega), if_pos h']

theorem region_hole (h : 0x2000 ≤ off.toNat) (h' : off.toNat < 0x10000) : region off = .hole := by
  unfold region
  rw [if_neg (by omega), if_neg (by omega), if_pos h']

theorem region_matrix (h : 0x10000 ≤ off.toNat) : region off = .matrix := by
  unfold region
  rw [if_neg (by omega), if_neg (by omega), if_neg (by omega)]

/-- The offset lies in a window that a running command closes (20_memory.md R66). -/
def inWindow (off : Offset) : Prop := region off = .codewords ∨ region off = .matrix

theorem inWindow_of_range (h : 0x1000 ≤ off.toNat ∧ off.toNat < 0x2000 ∨ 0x10000 ≤ off.toNat) : inWindow off :=
  h.imp (fun hc => region_codewords hc.1 hc.2) region_matrix

theorem accessAligned_window (h : inWindow off) : accessAligned off w = decide (off.toNat % w.bytes = 0) := by
  rcases h with h | h <;> simp only [accessAligned, h]

/-- The model's rule, by region, is the plain rule of R65. -/
theorem accessAligned_iff (off : Offset) (w : Width) : accessAligned off w = true ↔ legalAccess off w := by
  unfold legalAccess
  split_ifs with hreg hwin
  · simp [accessAligned, region_registers hreg]
  · simp [accessAligned_window (inWindow_of_range (off := off) (by omega))]
  · simp [accessAligned, region_hole (off := off) (by omega) (by omega)]

theorem windowClosed_window (h : inWindow off) : windowClosed off s = s.busy := by
  rcases h with h | h <;> simp [windowClosed, h]

theorem accessRefused_of_not_legalAccess (h : ¬ legalAccess off w) : accessRefused off w s = true := by
  have ha : accessAligned off w = false := Bool.eq_false_iff.2 fun hl => h ((accessAligned_iff off w).1 hl)
  simp [accessRefused, ha]

theorem accessRefused_of_busy (h : inWindow off) (hb : s.busy = true) : accessRefused off w s = true := by
  simp [accessRefused, windowClosed_window h, hb]

theorem accessRefused_of_idle (h : inWindow off) (hb : s.busy = false) (ha : off.toNat % w.bytes = 0) :
    accessRefused off w s = false := by
  simp [accessRefused, accessAligned_window h, windowClosed_window h, ha, hb]

theorem accessRefused_hole (h : region off = .hole) : accessRefused off w s = false := by
  simp [accessRefused, accessAligned, windowClosed, h]

theorem hostRead_refused (h : accessRefused off w s = true) :
    hostRead off w s = { raiseError .busAccess (accessInfo off w false) s with readData := some 0 } := if_pos h

theorem hostWrite_refused (h : accessRefused off w s = true) (v : Word) :
    hostWrite off w v s = raiseError .busAccess (accessInfo off w true) s := if_pos h

theorem hostRead_hole (h : region off = .hole) : hostRead off w s = { s with readData := some 0 } := by
  simp [hostRead, accessRefused_hole h, readValue, h]

theorem hostWrite_hole (h : region off = .hole) (v : Word) : hostWrite off w v s = s := by
  simp [hostWrite, accessRefused_hole h, h]

end

end Sys2Proof.Machine

namespace Sys2Proof.Proofs

open Sys2Proof.Machine

/-- Settles O50: a broken rule refuses the access in any state, and the reserved window refuses none. -/
theorem accessRulesOfTheRegions : Obligations.AccessRulesOfTheRegions := by
  intro off w v s
  refine ⟨fun hl => ?_, fun h h' => ?_⟩
  · have hr := accessRefused_of_not_legalAccess (s := s) hl
    exact ⟨hostWrite_refused hr v, hostRead_refused hr⟩
  · have hr := region_hole h h'
    exact ⟨hostWrite_hole hr v, hostRead_hole hr⟩

/-- Settles O51: BUSY closes both windows, and no register. -/
theorem windowsAreClosedWhileBusy : Obligations.WindowsAreClosedWhileBusy := by
  intro off w v s hb
  refine ⟨fun hw => ?_, fun h h4 => ⟨hostWrite_register h h4 v s, hostRead_register h h4 rfl⟩⟩
  have hr := accessRefused_of_busy (w := w) (inWindow_of_range hw) hb
  exact ⟨hostWrite_refused hr v, hostRead_refused hr⟩

end Sys2Proof.Proofs
end

section
/-! PROOF. What a host access leaves of a running command (20_memory.md R71, R72; 40_command_control.md R111). -/

namespace Sys2Proof.Machine

/-- What a running command reads and writes, and the schedule: BUSY, the latch, the memories, the result registers. -/
def SameCommand (s t : State) : Prop :=
  t.busy = s.busy ∧ t.latch = s.latch ∧ t.cw = s.cw ∧ t.mat = s.mat ∧ t.matVersion = s.matVersion ∧
  t.matSize = s.matSize ∧ t.gfResult = s.gfResult ∧ t.placed = s.placed ∧ t.resets = s.resets ∧ t.inbox = s.inbox

theorem sameCommand_raiseError (code : ErrCode) (info : Word) (s : State) : SameCommand s (raiseError code info s) := by
  simp [SameCommand]

theorem sameCommand_hostRead (off : Offset) (w : Width) (s : State) : SameCommand s (hostRead off w s) := by
  rcases hostRead_cases off w s with ⟨-, hs⟩ | ⟨-, hs⟩ <;> rw [hs]
  · exact sameCommand_raiseError .busAccess _ s
  · exact ⟨rfl, rfl, rfl, rfl, rfl, rfl, rfl, rfl, rfl, rfl⟩

/-- A command written while BUSY = 1 is not accepted. -/
theorem sameCommand_issue {s : State} (hb : s.busy = true) (w : Word) : SameCommand s (issue w s) := by
  rcases issue_cases w s with ⟨hidle, -, -⟩ | ⟨code, -, hs⟩
  · exact absurd (hb.symm.trans hidle) (by decide)
  · rw [hs]
    exact sameCommand_raiseError code w s

theorem sameCommand_writeRegister {s : State} (hb : s.busy = true) (off : Nat) (v : Word) :
    SameCommand s (writeRegister off v s) := by
  rcases writeRegister_cases off v s with hs | hs | hs | hs | hs | hs | hs <;> rw [hs]
  case inr.inl => exact sameCommand_issue hb v
  all_goals exact ⟨rfl, rfl, rfl, rfl, rfl, rfl, rfl, rfl, rfl, rfl⟩

theorem sameCommand_hostWrite {s : State} (hb : s.busy = true) (off : Offset) (w : Width) (v : Word) :
    SameCommand s (hostWrite off w v s) := by
  rcases hostWrite_cases off w v s with ⟨-, hs⟩ | ⟨-, -, hs⟩ | ⟨-, -, hidle, -⟩ | ⟨-, hs⟩
  · rw [hs]
    exact sameCommand_raiseError .busAccess _ s
  · rw [hs]
    exact sameCommand_writeRegister hb _ v
  · exact absurd (hb.symm.trans hidle) (by decide)
  · rw [hs]
    exact ⟨rfl, rfl, rfl, rfl, rfl, rfl, rfl, rfl, rfl, rfl⟩

end Sys2Proof.Machine

namespace Sys2Proof.Proofs

open Sys2Proof.Machine

/-- Settles O18: the step serves a read or a write, and while BUSY = 1 neither touches the running command. -/
theorem hostAccessLeavesTheRunningCommandAlone : Obligations.HostAccessLeavesTheRunningCommandAlone := by
  intro s t e rest hb hin hreset hengine h
  suffices hsame : SameCommand { s with inbox := rest } t by
    obtain ⟨hbusy, hframe⟩ := hsame
    exact ⟨hbusy.trans hb, hframe⟩
  rcases step_cases s with ⟨off, w, rest', hin', hs⟩ | ⟨off, w, v, rest', hin', hs⟩ | ⟨rest', hin', -⟩ |
    ⟨rest', hin', -⟩ <;> rw [hin] at hin'
  · cases hin'
    cases hs.symm.trans h
    exact sameCommand_hostRead off w _
  · cases hin'
    cases hs.symm.trans h
    exact sameCommand_hostWrite (s := { s with inbox := rest }) hb off w v
  · exact absurd (List.cons.inj hin').1 hreset
  · simp [hengine] at hin'

end Sys2Proof.Proofs
end

section
/-! PROOF. The bytes of an access as a 32-bit value, lowest offset in bits [7:0] (20_memory.md R64). -/

namespace Sys2Proof.Machine

theorem getLsbD_joinBytes_cons (b : Byte) (bs : List Byte) {i : Nat} (hi : i < 32) :
    (joinBytes (b :: bs)).getLsbD i = if i < 8 then b.getLsbD i else (joinBytes bs).getLsbD (i - 8) := by
  rw [joinBytes, BitVec.getLsbD_or, BitVec.getLsbD_shiftLeft, BitVec.getLsbD_setWidth]
  split
  case isTrue h8 =>
    simp only [hi, h8, decide_true, Bool.not_true, Bool.and_false, Bool.true_and, Bool.false_and, Bool.false_or]
  case isFalse h8 =>
    rw [BitVec.getLsbD_of_ge b i (by omega)]
    simp only [hi, h8, decide_true, decide_false, Bool.not_false, Bool.true_and, Bool.and_false, Bool.or_false]

/-- Bit `i` of a joined value is bit `i mod 8` of byte `i / 8`. -/
theorem getLsbD_joinBytes (bs : List Byte) {i : Nat} (hi : i < 32) :
    (joinBytes bs).getLsbD i = (bs.getD (i / 8) 0).getLsbD (i % 8) := by
  induction bs generalizing i with
  | nil => simp [joinBytes]
  | cons b bs ih =>
    rw [getLsbD_joinBytes_cons b bs hi]
    split
    case isTrue h8 => rw [Nat.div_eq_of_lt h8, Nat.mod_eq_of_lt h8, List.getD_cons_zero]
    case isFalse h8 =>
      rw [ih (by omega), show i / 8 = (i - 8) / 8 + 1 by omega, show i % 8 = (i - 8) % 8 by omega,
        List.getD_cons_succ]

/-- A byte in front of a list of bytes stands below the value that they join to. -/
theorem joinBytes_cons_eq_append {n : Nat} {x : BitVec n} {bs : List Byte} (h : joinBytes bs = x.setWidth 32)
    (b : Byte) : joinBytes (b :: bs) = (x ++ b).setWidth 32 := by
  refine BitVec.eq_of_getLsbD_eq fun i hi => ?_
  rw [getLsbD_joinBytes_cons b bs hi, h, BitVec.getLsbD_setWidth, BitVec.getLsbD_setWidth, BitVec.getLsbD_append,
    decide_eq_true hi, decide_eq_true (show i - 8 < 32 by omega), Bool.true_and, Bool.true_and]

theorem joinBytes_byte (f : Nat → Byte) : joinBytes ((List.range Width.byte.bytes).map f) = 0#24 ++ f 0 :=
  calc joinBytes [f 0]
    _ = (0#24 ++ f 0).setWidth 32 := joinBytes_cons_eq_append (x := 0#24) rfl (f 0)
    _ = 0#24 ++ f 0 := BitVec.setWidth_eq _

theorem joinBytes_half (f : Nat → Byte) : joinBytes ((List.range Width.half.bytes).map f) = 0#16 ++ f 1 ++ f 0 :=
  calc joinBytes [f 0, f 1]
    _ = (0#16 ++ f 1 ++ f 0).setWidth 32 :=
      joinBytes_cons_eq_append (joinBytes_cons_eq_append (x := 0#16) rfl (f 1)) (f 0)
    _ = 0#16 ++ f 1 ++ f 0 := BitVec.setWidth_eq _

theorem joinBytes_word (f : Nat → Byte) :
    joinBytes ((List.range Width.word.bytes).map f) = f 3 ++ f 2 ++ f 1 ++ f 0 := by
  have h3 : joinBytes [f 3] = (f 3).setWidth 32 := by simp [joinBytes]
  calc joinBytes [f 0, f 1, f 2, f 3]
    _ = (f 3 ++ f 2 ++ f 1 ++ f 0).setWidth 32 :=
      joinBytes_cons_eq_append (joinBytes_cons_eq_append (joinBytes_cons_eq_append h3 (f 2)) (f 1)) (f 0)
    _ = f 3 ++ f 2 ++ f 1 ++ f 0 := BitVec.setWidth_eq _

/-! ## The bytes of a written value -/

theorem splitBytes_length (v : Word) (n : Nat) : (splitBytes v n).length = n := by simp [splitBytes]

theorem splitBytes_getD (v : Word) {n k : Nat} (hk : k < n) : (splitBytes v n).getD k 0 = v.extractLsb' (8 * k) 8 := by
  simp [splitBytes, hk]

/-- The bytes of a value, joined again, are the value's low bytes. -/
theorem joinBytes_splitBytes (v : Word) (n : Nat) :
    joinBytes (splitBytes v n) = (v.setWidth (8 * n)).setWidth 32 := by
  apply BitVec.eq_of_getLsbD_eq
  intro i hi
  rw [getLsbD_joinBytes _ hi]
  by_cases hn : i / 8 < n
  · rw [splitBytes_getD v hn]
    have hin : i < 8 * n := by omega
    simp [hi, hin, Nat.mod_lt, Nat.div_add_mod]
  · have hin : ¬ i < 8 * n := by omega
    rw [List.getD_eq_default _ _ (by rw [splitBytes_length]; omega)]
    simp [hin]

end Sys2Proof.Machine
end

section
/-! PROOF. Accesses to the CW and M windows of an idle block (20_memory.md R62 to R64). -/

namespace Sys2Proof.Machine

section

variable {off : Offset} {w : Width} {s : State} {i r : Nat}

theorem toNat_offset {n : Nat} (h : n < 2 ^ 17) : (BitVec.ofNat 17 n : Offset).toNat = n := by
  rw [BitVec.toNat_ofNat, Nat.mod_eq_of_lt h]

/-- An aligned access ends where its window or its row of the M window ends, or before. -/
theorem add_bytes_le {n : Nat} (hi : i < n) (ha : i % w.bytes = 0) (hn : n % 4 = 0) : i + w.bytes ≤ n := by
  cases w <;> simp only [Width.bytes] at * <;> omega

/-- The base of a window or of a row of the M window is aligned for every width. -/
theorem add_mod_bytes {m : Nat} (hm : m % 4 = 0) (i : Nat) (w : Width) : (m + i) % w.bytes = i % w.bytes := by
  cases w <;> simp only [Width.bytes] <;> omega

/-- An aligned read of a window returns the bytes that it covers. -/
theorem hostRead_window (h : inWindow off) (hb : s.busy = false) (ha : off.toNat % w.bytes = 0) {f : Nat → Byte}
    (hf : ∀ k, k < w.bytes → windowByte s (off.toNat + k) = f k) :
    hostRead off w s = { s with readData := some (joinBytes ((List.range w.bytes).map f)) } := by
  have hv : readValue off w s = joinBytes ((List.range w.bytes).map fun k => windowByte s (off.toNat + k)) := by
    rcases h with h | h <;> simp only [readValue, h]
  rw [List.map_congr_left fun k hk => hf k (List.mem_range.1 hk)] at hv
  simp [hostRead, accessRefused_of_idle h hb ha, hv]

/-- The bytes under an aligned read of the CW window are bytes of CW. -/
theorem hostRead_codewords (hb : s.busy = false) (ho : off.toNat = 0x1000 + i) (hi : i < 4096)
    (ha : i % w.bytes = 0) :
    hostRead off w s = { s with readData := some (joinBytes ((List.range w.bytes).map fun k => cwByte s (i + k))) } := by
  have hfit := add_bytes_le hi ha (by decide)
  refine hostRead_window (inWindow_of_range (by omega)) hb (by rw [ho, add_mod_bytes (by decide), ha]) fun k hk => ?_
  rw [windowByte, if_pos (by omega), show off.toNat + k - 0x1000 = i + k by omega]

/-- The bytes under an aligned read of the M window are cells of one row. -/
theorem hostRead_matrix (hb : s.busy = false) (ho : off.toNat = 0x10000 + 256 * r + i) (hi : i < 256)
    (ha : i % w.bytes = 0) :
    hostRead off w s =
      { s with readData := some (joinBytes ((List.range w.bytes).map fun k => matrixByte s r (i + k))) } := by
  have hfit := add_bytes_le hi ha (by decide)
  refine hostRead_window (inWindow_of_range (by omega)) hb (by rw [ho, add_mod_bytes (by omega), ha]) fun k hk => ?_
  rw [windowByte, if_neg (by omega), show (off.toNat + k - 0x10000) / 256 = r by omega,
    show (off.toNat + k) % 256 = i + k by omega]

/-- An aligned write of the CW window stores its bytes. -/
theorem hostWrite_codewords (hb : s.busy = false) (h : 0x1000 ≤ off.toNat) (h' : off.toNat < 0x2000)
    (ha : off.toNat % w.bytes = 0) (v : Word) :
    hostWrite off w v s = { s with cw := storeBytes s.cw (off.toNat - 0x1000) (splitBytes v w.bytes) } := by
  have hr := region_codewords h h'
  simp [hostWrite, accessRefused_of_idle (.inl hr) hb ha, hr]

/-- An aligned write of the M window is ignored. -/
theorem hostWrite_matrix (hb : s.busy = false) (h : 0x10000 ≤ off.toNat) (ha : off.toNat % w.bytes = 0) (v : Word) :
    hostWrite off w v s = s := by
  have hr := region_matrix h
  simp [hostWrite, accessRefused_of_idle (.inr hr) hb ha, hr]

/-- Storing a list of bytes that fits the buffer: each byte of the range reads as stored, every other byte as before. -/
theorem cwByte_storeBytes (s : State) (bs : List Byte) (hfit : i + bs.length ≤ 4096) (j : Nat) :
    cwByte { s with cw := storeBytes s.cw i bs } j =
      if i ≤ j ∧ j < i + bs.length then bs.getD (j - i) 0 else cwByte s j :=
  loadCw_storeBytes s.resets bs s.cw i j hfit

end

/-- The byte of a cell holds its kind code above its value (10_state.md R43). -/
theorem cellByte_word (x : MatCell) :
    0#24 ++ cellByte x = BitVec.ofNat 32 (2 * x.kind.code.toNat + x.val.toNat) := by
  obtain ⟨kind, val⟩ := x
  cases kind <;> cases val <;> rfl

theorem matrixByte_word (s : State) (r c : Nat) :
    0#24 ++ matrixByte s r c =
      if r < s.matSize.toNat ∧ c < s.matSize.toNat then
        BitVec.ofNat 32 (2 * (loadCell s.mat r c).kind.code.toNat + (loadCell s.mat r c).val.toNat)
      else 0 := by
  unfold matrixByte
  split
  · exact cellByte_word _
  · rfl

end Sys2Proof.Machine

namespace Sys2Proof.Proofs

open Sys2Proof.Machine

/-- Settles O52: the written bytes fit the buffer, so each reads as stored, and joined again they are the value. -/
theorem cwWindowStoresAndReturnsBytes : Obligations.CwWindowStoresAndReturnsBytes := by
  intro off w v s hb h h' ha t
  have ht : t = { s with cw := storeBytes s.cw (off.toNat - 0x1000) (splitBytes v w.bytes) } :=
    hostWrite_codewords hb h h' ha v
  have ho : off.toNat = 0x1000 + (off.toNat - 0x1000) := by omega
  have hi : (off.toNat - 0x1000) % w.bytes = 0 := by rw [← add_mod_bytes (m := 0x1000) (by decide), ← ho, ha]
  have hfit : off.toNat - 0x1000 + w.bytes ≤ 4096 := add_bytes_le (by omega) hi (by decide)
  have hload := cwByte_storeBytes s (splitBytes v w.bytes) (by rwa [splitBytes_length])
  rw [← ht, splitBytes_length] at hload
  have hstored : ∀ k, k < w.bytes → cwByte t (off.toNat - 0x1000 + k) = v.extractLsb' (8 * k) 8 := by
    intro k hk
    rw [hload, if_pos ⟨by omega, by omega⟩, Nat.add_sub_cancel_left, splitBytes_getD v hk]
  refine ⟨by rw [ht], hstored, fun j hj => ?_, ?_⟩
  · rw [hload, if_neg (by omega)]
  · rw [hostRead_codewords (by rw [ht]; exact hb) ho (by omega) hi,
      List.map_congr_left fun k hk => hstored k (List.mem_range.1 hk)]
    exact congrArg (fun x => { t with readData := some x }) (joinBytes_splitBytes v w.bytes)

/-- Settles O53: for each width the access covers 1, 2 or 4 bytes from its offset, and these joined are its value. -/
theorem readsAreLittleEndian : Obligations.ReadsAreLittleEndian := by
  intro s j r hb
  refine ⟨fun hj => ?_, fun hj => ?_, fun hj => ?_, fun hr hj => ?_, fun hr hj => ?_, fun hr hj => ?_⟩
  · rw [hostRead_codewords (w := .byte) hb (toNat_offset (by omega)) hj (Nat.mod_one j), joinBytes_byte]
    rfl
  · rw [hostRead_codewords hb (toNat_offset (by omega)) (by omega) (Nat.mul_mod_right 2 j), joinBytes_half]
    rfl
  · rw [hostRead_codewords hb (toNat_offset (by omega)) (by omega) (Nat.mul_mod_right 4 j), joinBytes_word]
    rfl
  · rw [hostRead_matrix (w := .byte) hb (toNat_offset (by omega)) hj (Nat.mod_one j), joinBytes_byte]
    rfl
  · rw [hostRead_matrix hb (toNat_offset (by omega)) (by omega) (Nat.mul_mod_right 2 j), joinBytes_half]
    rfl
  · rw [hostRead_matrix hb (toNat_offset (by omega)) (by omega) (Nat.mul_mod_right 4 j), joinBytes_word]
    rfl

/-- Settles O54: a 1-byte read returns the byte of one cell or 0, and the M window takes no write. -/
theorem matrixWindowShowsTheSquare : Obligations.MatrixWindowShowsTheSquare := by
  intro s r c off w v hb
  refine ⟨fun hr hc => ?_, fun h ha => hostWrite_matrix hb h ha v⟩
  rw [hostRead_matrix (w := .byte) hb (toNat_offset (by omega)) hc (Nat.mod_one c), joinBytes_byte, ← matrixByte_word]
  rfl

end Sys2Proof.Proofs
end

section
/-! PROOF. The decoder by layout, and the encoder as its inverse (30_encoding.md R90 to R94). -/

namespace Sys2Proof

variable {w : Word} {i j : Instr}

/-- The three ways of the decoder: layout Z under the opcode of its command, layout G under 0x01, and the opcodes of no
command. -/
theorem decode_cases (w : Word) :
    (∃ i, opcode i ≠ 0x01#8 ∧ opcField w = opcode i ∧ decode w = decodeZ w i) ∨
      (opcField w = 0x01#8 ∧ decode w = decodeG w) ∨
      (0x0A ≤ (opcField w).toNat ∧ decode w = .error .reservedOpcode) := by
  unfold decode
  split
  case h_1 h => exact .inl ⟨.nop, by decide, BitVec.eq_of_toNat_eq h, rfl⟩
  case h_2 h => exact .inr (.inl ⟨BitVec.eq_of_toNat_eq h, rfl⟩)
  case h_3 h => exact .inl ⟨.rsGen, by decide, BitVec.eq_of_toNat_eq h, rfl⟩
  case h_4 h => exact .inl ⟨.matInit, by decide, BitVec.eq_of_toNat_eq h, rfl⟩
  case h_5 h => exact .inl ⟨.place, by decide, BitVec.eq_of_toNat_eq h, rfl⟩
  case h_6 h => exact .inl ⟨.mask, by decide, BitVec.eq_of_toNat_eq h, rfl⟩
  case h_7 h => exact .inl ⟨.stampFmt, by decide, BitVec.eq_of_toNat_eq h, rfl⟩
  case h_8 h => exact .inl ⟨.stampVer, by decide, BitVec.eq_of_toNat_eq h, rfl⟩
  case h_9 h => exact .inl ⟨.build, by decide, BitVec.eq_of_toNat_eq h, rfl⟩
  case h_10 h => exact .inl ⟨.encode, by decide, BitVec.eq_of_toNat_eq h, rfl⟩
  case h_11 =>
    refine .inr (.inr ⟨?_, rfl⟩)
    simp only [imp_false] at *
    omega

theorem decode_layoutG (h : opcField w = 0x01#8) : decode w = decodeG w := by
  unfold decode
  rw [h]
  rfl

theorem decodeZ_eq_ok_iff : decodeZ w i = .ok j ↔ w.extractLsb' 8 24 = 0#24 ∧ i = j := by
  unfold decodeZ
  split <;> simp [*]

theorem decodeG_eq_ok_iff : decodeG w = .ok j ↔ w.extractLsb' 24 8 = 0#8 ∧ .gfMul (aField w) (bField w) = j := by
  unfold decodeG
  split <;> simp [*]

theorem decodeZ_eq_error_iff : (∃ e, decodeZ w i = .error e) ↔ w.extractLsb' 8 24 ≠ 0#24 := by
  unfold decodeZ
  split <;> simp [*]

theorem decodeG_eq_error_iff : (∃ e, decodeG w = .error e) ↔ w.extractLsb' 24 8 ≠ 0#8 := by
  unfold decodeG
  split <;> simp [*]

/-! ## The encoder -/

theorem encode_layoutZ (h : opcode i ≠ 0x01#8) : encode i = encodeZ (opcode i) := by
  cases i with
  | gfMul a b => exact absurd rfl h
  | _ => rfl

theorem opcode_toNat_le (i : Instr) : (opcode i).toNat ≤ 0x09 := by
  cases i <;> simp [opcode]

/-- A word whose reserved bits are 0 is the word of its fields, in either layout. -/
theorem encodeZ_opcField (h : w.extractLsb' 8 24 = 0#24) : encodeZ (opcField w) = w := by
  unfold encodeZ opcField
  rw [← h]
  exact (BitVec.extractLsb'_append_extractLsb'_eq_extractLsb' rfl).trans BitVec.extractLsb'_eq_self

theorem encodeG_fields (h : w.extractLsb' 24 8 = 0#8) : encodeG (opcField w) (aField w) (bField w) = w := by
  unfold encodeG opcField aField bField
  rw [← h, BitVec.extractLsb'_append_extractLsb'_eq_extractLsb' (show 24 = 16 + 8 from rfl),
    BitVec.extractLsb'_append_extractLsb'_eq_extractLsb' (show 16 = 8 + 8 from rfl)]
  exact (BitVec.extractLsb'_append_extractLsb'_eq_extractLsb' rfl).trans BitVec.extractLsb'_eq_self

theorem encode_gfMul_eq (a b : Byte) :
    encode (.gfMul a b) = (b.setWidth 32 <<< 16) ||| (a.setWidth 32 <<< 8) ||| 1#32 := by
  unfold encode encodeG opcode
  grind

theorem aField_encodeG (opc a b : Byte) : aField (encodeG opc a b) = a := by
  unfold aField encodeG
  rw [BitVec.extractLsb'_append_eq_of_le (by decide)]
  exact BitVec.extractLsb'_append_eq_right

theorem bField_encodeG (opc a b : Byte) : bField (encodeG opc a b) = b := by
  unfold bField encodeG
  rw [BitVec.extractLsb'_append_eq_of_le (by decide), BitVec.extractLsb'_append_eq_of_le (by decide)]
  exact BitVec.extractLsb'_append_eq_right

theorem decode_encode (i : Instr) : decode (encode i) = .ok i := by
  cases i with
  | gfMul a b =>
    obtain ⟨hopc, htop, -⟩ := Laws.Layout.gfMul a b
    rw [decode_layoutG hopc, decodeG_eq_ok_iff]
    exact ⟨htop, congrArg₂ Instr.gfMul (aField_encodeG _ a b) (bField_encodeG _ a b)⟩
  | _ => rfl

theorem encode_of_decode (h : decode w = .ok i) : encode i = w := by
  rcases decode_cases w with ⟨j, hj, hopc, hd⟩ | ⟨hopc, hd⟩ | ⟨-, hd⟩ <;> rw [hd] at h
  · obtain ⟨hzero, rfl⟩ := decodeZ_eq_ok_iff.1 h
    rw [encode_layoutZ hj, ← hopc, encodeZ_opcField hzero]
  · obtain ⟨hzero, rfl⟩ := decodeG_eq_ok_iff.1 h
    show encodeG 0x01#8 (aField w) (bField w) = w
    rw [← hopc, encodeG_fields hzero]
  · cases h

end Sys2Proof

namespace Sys2Proof.Machine

theorem issue_illegal {w : Word} {e : Illegal} {s : State} (hb : s.busy = false) (hd : decode w = .error e) :
    issue w s = raiseError .illegalCmd w s := by
  simp [issue, hb, hd]

theorem issue_encode {i : Instr} {s : State} (hb : s.busy = false) (hi : issueError i s = none) :
    issue (encode i) s = accept (encode i) s := by
  simp [issue, hb, decode_encode, hi]

end Sys2Proof.Machine

namespace Sys2Proof.Proofs

open Sys2Proof.Machine

/-- Settles O1: a word is the top bits that its layout fixes at 0 above the fields that the decoder reads. -/
theorem decodeAndEncodeAgree : Obligations.DecodeAndEncodeAgree :=
  ⟨decode_encode, fun _ _ => encode_of_decode⟩

/-- Settles O2: one case for each way of the decoder, told apart by OPC. -/
theorem illegalWordsAreTheReservedEncodings : Obligations.IllegalWordsAreTheReservedEncodings := by
  intro w
  refine ⟨?_, fun s hb ⟨e, hd⟩ => issue_illegal hb hd⟩
  change _ ↔ 0x0A ≤ (opcField w).toNat ∨ ((opcField w).toNat = 0x01 ∧ _) ∨
    ((opcField w).toNat = 0x00 ∨ 0x02 ≤ (opcField w).toNat ∧ (opcField w).toNat ≤ 0x09) ∧ _
  rcases decode_cases w with ⟨i, hi, hopc, hd⟩ | ⟨hopc, hd⟩ | ⟨hopc, hd⟩ <;> rw [hd]
  · have hle := opcode_toNat_le i
    have hne : (opcode i).toNat ≠ 0x01 := fun h => hi (BitVec.eq_of_toNat_eq h)
    have hlow : ¬ 0x0A ≤ (opcode i).toNat := by omega
    have hmap : (opcode i).toNat = 0x00 ∨ 0x02 ≤ (opcode i).toNat ∧ (opcode i).toNat ≤ 0x09 := by omega
    rw [decodeZ_eq_error_iff, hopc]
    simp [hlow, hne, hmap]
  · rw [decodeG_eq_error_iff, hopc]
    simp
  · simp [hopc]

/-- Settles O3, word by word. -/
theorem wordsOfTheOpcodeMapDecode : Obligations.WordsOfTheOpcodeMapDecode := by
  unfold Obligations.WordsOfTheOpcodeMapDecode
  decide

end Sys2Proof.Proofs
end

section
/-! PROOF. The script line `run`: the write of a command, reads of STATUS while it runs, its completion, and the read
that sees BUSY = 0 (30_encoding.md R95, R96; 70_reset_and_hazards.md R271). -/

namespace Sys2Proof.Machine

open Sys2Proof.Claims

/-! ## Commands and the schedule's own fields -/

/-- `s` with the model's two fields of the schedule replaced: what happens next, and what the host last read (log 2,
log 4). -/
def setSchedule (q : List Event) (d : Option Word) (s : State) : State := { s with inbox := q, readData := d }

theorem setSchedule_of_inbox {q : List Event} {t : State} (h : t.inbox = q) (d : Option Word) :
    setSchedule q d t = { t with readData := d } := by
  rw [setSchedule, ← h]

section

variable (q : List Event) (d : Option Word) (s : State)

theorem rsGenEffect_setSchedule (k n : Nat) :
    rsGenEffect k n (setSchedule q d s) = setSchedule q d (rsGenEffect k n s) := by
  have hn : (setSchedule q d s).ecLengths = s.ecLengths := rfl
  unfold rsGenEffect
  rw [hn]
  split
  · rfl
  · split <;> rfl

theorem matInitEffect_setSchedule (v : BitVec 5) :
    matInitEffect v (setSchedule q d s) = setSchedule q d (matInitEffect v s) := by
  simp only [matInitEffect, setSchedule]

theorem maskEffect_setSchedule (id : BitVec 3) :
    maskEffect id (setSchedule q d s) = setSchedule q d (maskEffect id s) := by
  simp only [maskEffect, setSchedule]

theorem stampFmtEffect_setSchedule (e : BitVec 2) (m : BitVec 3) :
    stampFmtEffect e m (setSchedule q d s) = setSchedule q d (stampFmtEffect e m s) := by
  simp only [stampFmtEffect, setSchedule]

theorem placeEffect_setSchedule (N : Nat) : placeEffect N (setSchedule q d s) = setSchedule q d (placeEffect N s) := by
  have hp : placeLoop (setSchedule q d s).matSize.toNat (streamBit (setSchedule q d s) N) (setSchedule q d s).mat =
      placeLoop s.matSize.toNat (streamBit s N) s.mat := rfl
  simp only [placeEffect, hp]
  rfl

theorem stampVerEffect_setSchedule : stampVerEffect (setSchedule q d s) = setSchedule q d (stampVerEffect s) := by
  have hv : (setSchedule q d s).matVersion = s.matVersion := rfl
  unfold stampVerEffect
  rw [hv]
  split <;> rfl

theorem buildEffect_setSchedule (l : Latch) : buildEffect l (setSchedule q d s) = setSchedule q d (buildEffect l s) := by
  simp only [buildEffect, matInitEffect_setSchedule, placeEffect_setSchedule, maskEffect_setSchedule,
    stampFmtEffect_setSchedule, stampVerEffect_setSchedule]

/-- A command reads neither what happens next nor what the host last read, and leaves both. -/
theorem effect_setSchedule (i : Instr) : effect i (setSchedule q d s) = setSchedule q d (effect i s) := by
  cases i with
  | nop | gfMul a b => rfl
  | rsGen => exact rsGenEffect_setSchedule q d s _ _
  | matInit => exact matInitEffect_setSchedule q d s _
  | place => exact placeEffect_setSchedule q d s _
  | mask => exact maskEffect_setSchedule q d s _
  | stampFmt => exact stampFmtEffect_setSchedule q d s _ _
  | stampVer => exact stampVerEffect_setSchedule q d s
  | build => exact buildEffect_setSchedule q d s _
  | encode =>
    calc encodeEffect s.latch (setSchedule q d s)
      _ = buildEffect s.latch (setSchedule q d (rsGenEffect s.latch.dlen.toNat s.latch.elen.toNat s)) := by
        rw [encodeEffect, rsGenEffect_setSchedule]
      _ = setSchedule q d (encodeEffect s.latch s) := buildEffect_setSchedule q d _ _

end

/-! ## Runs -/

section

variable {s t : State} {i : Instr} (d : Option Word) (rest : List Event)

theorem run_succ (h : step s = .next t) (n : Nat) : run (n + 1) s = run n t := by
  rw [run, h]

/-- A STATUS read is served at once, busy or not, and changes only what the host has read. -/
theorem step_statusRead (s : State) :
    step (setSchedule (.read Reg.status.offset .word :: rest) d s) =
      .next (setSchedule rest (some (statusWord s)) s) :=
  congrArg Host.Outcome.next (hostRead_register (s := setSchedule rest d s) (by decide) (by decide) rfl)

/-- The engine's turn completes the latched command. -/
theorem step_engine (hb : s.busy = true) (hd : decode s.latch.word = .ok i) :
    step (setSchedule (.engine :: rest) d s) = .next (setSchedule rest d (complete (effect i s))) := by
  have he : step (setSchedule (.engine :: rest) d s) = exec i (setSchedule rest d s) := by
    simp [step, nextTurn, serve, engineTurn, setSchedule, hb, hd]
  rw [he, exec_eq, effect_setSchedule]
  rfl

/-- The write of a command that passes its checks is its acceptance. -/
theorem step_cmdWrite (hb : s.busy = false) (hi : issueError i s = none) :
    step (setSchedule (.write Reg.cmd.offset .word (encode i) :: rest) d s) =
      .next (setSchedule rest d (accept (encode i) s)) :=
  congrArg Host.Outcome.next <|
    calc hostWrite Reg.cmd.offset .word (encode i) (setSchedule rest d s)
      _ = issue (encode i) (setSchedule rest d s) := hostWrite_register (by decide) (by decide) _ _
      _ = accept (encode i) (setSchedule rest d s) := issue_encode hb hi

/-- Any number of STATUS reads leave the block as it is. -/
theorem run_statusReads (k n : Nat) (s : State) :
    ∃ d', run (k + n) (setSchedule (List.replicate k (.read Reg.status.offset .word) ++ rest) d s) =
      run n (setSchedule rest d' s) := by
  induction k generalizing d with
  | zero => exact ⟨d, by rw [Nat.zero_add]; rfl⟩
  | succ k ih =>
    rw [Nat.succ_add, List.replicate_succ, List.cons_append, run_succ (step_statusRead d _ s)]
    exact ih _

/-- `poll` on a running command: it completes, and the last read shows it. -/
theorem run_pollEvents (hb : s.busy = true) (hd : decode s.latch.word = .ok i) (k : Nat) :
    run (k + 2) (setSchedule (pollEvents k) d s) =
      .next (setSchedule [] (some (statusWord (complete (effect i s)))) (complete (effect i s))) := by
  obtain ⟨d', hreads⟩ := run_statusReads d [.engine, .read Reg.status.offset .word] k 2 s
  rw [pollEvents, hreads, run_succ (step_engine d' _ hb hd), run_succ (step_statusRead d' _ _), run]

/-- `run` of a command that passes its checks on an idle block. -/
theorem run_runEvents (hb : s.busy = false) (hi : issueError i s = none) (k : Nat)
    (ht : complete (effect i (accept (encode i) s)) = t) :
    run (k + 3) (setSchedule (Line.run i k).events d s) = .next (setSchedule [] (some (statusWord t)) t) := by
  rw [Line.events, run_succ (step_cmdWrite d _ hb hi), run_pollEvents d rfl (decode_encode i), ht]

end

end Sys2Proof.Machine

namespace Sys2Proof.Proofs

open Sys2Proof.Machine

/-- Settles O59: the write is an acceptance, and the reads of STATUS before and after the engine's turn leave the command
and its effect alone. -/
theorem runScriptLineCompletesTheCommand : Obligations.RunScriptLineCompletesTheCommand := by
  refine ⟨fun i => rfl, by decide, fun a b => ?_, fun s i k hb hin hi => ?_⟩
  · rw [← encode_gfMul_eq]
    rfl
  · have hs : s = setSchedule (Line.run i k).events s.readData { s with inbox := [] } := by rw [← hin]; rfl
    have hrun := run_runEvents (s := { s with inbox := [] }) s.readData hb hi k rfl
    rw [← hs] at hrun
    have hinbox : (complete (effect i (accept (encode i) { s with inbox := [] }))).inbox = [] := by simp [effect_frame]
    exact ⟨_, _, exec_eq i _, hrun, setSchedule_of_inbox hinbox _, (statusWord_flags _).1⟩

end Sys2Proof.Proofs
end

section
/-! PROOF. Issue by its checks, acceptance and rejection (40_command_control.md R110 to R113). -/

namespace Sys2Proof.Machine

theorem needsMatrix_iff (i : Instr) : needsMatrix i = true ↔ i ∈ [Instr.place, .mask, .stampFmt, .stampVer] := by
  cases i <;> simp [needsMatrix]

theorem needsBuffer_iff (i : Instr) : needsBuffer i = true ↔ i ∈ [Instr.rsGen, .place, .build, .encode] := by
  cases i <;> simp [needsBuffer]

theorem versionLegal_iff (v : BitVec 5) : versionLegal v = true ↔ 1 ≤ v.toNat ∧ v.toNat ≤ 29 :=
  Bool.and_eq_true_iff.trans (and_congr decide_eq_true_iff decide_eq_true_iff)

theorem lengthsFit_iff (d : BitVec 13) (e : BitVec 8) : lengthsFit d e = true ↔ d.toNat + e.toNat ≤ 4096 :=
  decide_eq_true_iff

/-- The checks of a legal command with the commands and bounds written out (40_command_control.md R110). -/
theorem issueError_eq (i : Instr) (s : State) :
    issueError i s =
      if i ∈ [Instr.matInit, .build, .encode] ∧ ¬ (1 ≤ s.version.toNat ∧ s.version.toNat ≤ 29) then some .badVersion
      else if i ∈ [Instr.place, .mask, .stampFmt, .stampVer] ∧ s.matVersion = 0#5 then some .noMatrix
      else if i ∈ [Instr.rsGen, .place, .build, .encode] ∧ 4096 < s.dataLen.toNat + s.ecLen.toNat then some .cwOverflow
      else none := by
  simp only [issueError, Bool.and_eq_true, Bool.not_eq_true', ← Bool.not_eq_true, decide_eq_true_eq, needsVersion_iff,
    needsMatrix_iff, needsBuffer_iff, versionLegal_iff, lengthsFit_iff, Nat.not_le, BitVec.ofNat_eq_ofNat]

theorem issue_busy {s : State} (hb : s.busy = true) (w : Word) : issue w s = raiseError .cmdWhileBusy w s := by
  rw [issue, if_pos hb]

/-- An idle block accepts a legal command, or records the check that it fails. -/
theorem issue_legal {w : Word} {i : Instr} {s : State} (hb : s.busy = false) (hd : decode w = .ok i) :
    issue w s = (issueError i s).elim (accept w s) fun code => raiseError code w s := by
  cases hi : issueError i s <;> simp [issue, hb, hd, hi]

/-- Recording an error touches nothing but the error record (60_exceptions.md R232). -/
theorem raiseError_frame (code : ErrCode) (info : Word) (s : State) :
    raiseError code info s =
      { s with
        err := (raiseError code info s).err
        errCode := (raiseError code info s).errCode
        errInfo := (raiseError code info s).errInfo
        errMult := (raiseError code info s).errMult } := by
  unfold raiseError
  split <;> rfl

end Sys2Proof.Machine

namespace Sys2Proof.Proofs

open Sys2Proof.Machine

/-- Settles O11: CMD is an aligned register, and the chain of checks stops at its first true condition. -/
theorem issueChecksInOrder : Obligations.IssueChecksInOrder := by
  intro w s
  refine ⟨hostWrite_register (by decide) (by decide) w s, fun hb => issue_busy hb w, fun hb e hd => issue_illegal hb hd,
    fun hb i hd => ?_⟩
  rw [issue_legal hb hd, issueError_eq]
  refine ⟨fun hv => ?_, fun hv hm => ?_, fun hv hm ho => ?_, fun hv hm ho => ?_⟩
  · rw [if_pos hv, Option.elim_some]
  · rw [if_neg hv, if_pos hm, Option.elim_some]
  · rw [if_neg hv, if_neg hm, if_pos ho, Option.elim_some]
  · rw [if_neg hv, if_neg hm, if_neg ho, Option.elim_none]

/-- Settles O12: it is the definition of acceptance. -/
theorem acceptanceLoadsTheLatch : Obligations.AcceptanceLoadsTheLatch := fun _ _ => rfl

/-- Settles O13: issue accepts or records one error, and recording an error touches nothing else. -/
theorem rejectedCommandChangesOnlyTheErrorRecord : Obligations.RejectedCommandChangesOnlyTheErrorRecord := by
  intro w s
  rcases issue_cases w s with ⟨-, -, hs⟩ | ⟨code, hc, hs⟩
  · exact .inl hs
  · refine .inr ⟨⟨code, hc, hs⟩, ?_⟩
    rw [hs]
    exact raiseError_frame code w s

end Sys2Proof.Proofs
end

section
/-! PROOF. The engine's turn and completion (40_command_control.md R114, R115, R120; 60_exceptions.md R236). -/

namespace Sys2Proof.Machine

/-- The engine's turn with BUSY = 1 runs the latched command. -/
theorem step_eq_exec {s s' : State} {i : Instr} (h : nextTurn s = engineTurn s') (hb : s'.busy = true)
    (hd : decode s'.latch.word = .ok i) : step s = exec i s' := by
  simp only [step, h, engineTurn, if_pos hb, hd]

/-- A fetched word stands in the latch of the accepted state, and the turn is the engine's (log 1). -/
theorem nextTurn_withFetchWord (s : State) {w : Nat} (h : w < 2 ^ 32) :
    nextTurn (s.withFetchWord 32 w) = engineTurn (accept (BitVec.ofNat 32 w) s) := by
  rw [State.withFetchWord, Nat.mod_eq_of_lt h]
  rfl

end Sys2Proof.Machine

namespace Sys2Proof.Proofs

open Sys2Proof.Machine

/-- Settles O16: a command completes with its effect, which leaves every field outside the list. -/
theorem everyCommandCompletesWithoutError : Obligations.EveryCommandCompletesWithoutError := by
  intro i s
  refine ⟨_, exec_eq i s, ?_⟩
  simp only [complete, effect_frame]

/-- Settles O4: with nothing pending, or its own entry first, the turn is the engine's. -/
theorem engineTurnRunsTheLatchedCommand : Obligations.EngineTurnRunsTheLatchedCommand := by
  intro s i hb hd
  refine ⟨fun hin => step_eq_exec ?_ hb hd, fun rest hin => step_eq_exec ?_ hb hd⟩
  · rw [nextTurn, hin]
  · rw [nextTurn, hin]
    rfl

/-- Settles O6: the accepted state is busy with the fetched word in its latch. -/
theorem fetchedWordRunsNext : Obligations.FetchedWordRunsNext :=
  fun s _ _ hw hd => step_eq_exec (nextTurn_withFetchWord s hw) rfl hd

/-- Settles O19: the effect of NOP is the state itself. -/
theorem nopOnlyCompletes : Obligations.NopOnlyCompletes := exec_eq .nop

end Sys2Proof.Proofs
end

section
/-! PROOF. GF(256): the table product as repeated multiplication by x, and the laws that follow (41_gf_rs.md R130 to
R135). -/

namespace Sys2Proof.Machine

open Sys2Proof.Claims

/-! ## Multiplication by x -/

theorem timesX_xor (a b : Byte) : timesX (a ^^^ b) = timesX a ^^^ timesX b := by
  have hs : (a ^^^ b) <<< 1 = a <<< 1 ^^^ b <<< 1 := BitVec.shiftLeft_xor_distrib ..
  have hp : (0x1D#8 ^^^ (0x1D#8 ^^^ (a <<< 1 ^^^ b <<< 1))) = a <<< 1 ^^^ b <<< 1 := by
    rw [← BitVec.xor_assoc, BitVec.xor_self, BitVec.zero_xor]
  unfold timesX
  rw [BitVec.getLsbD_xor, hs]
  cases a.getLsbD 7 <;> cases b.getLsbD 7
  · rfl
  · exact BitVec.xor_assoc ..
  · show a <<< 1 ^^^ b <<< 1 ^^^ 0x1D#8 = a <<< 1 ^^^ 0x1D#8 ^^^ b <<< 1
    ac_rfl
  · show a <<< 1 ^^^ b <<< 1 = a <<< 1 ^^^ 0x1D#8 ^^^ (b <<< 1 ^^^ 0x1D#8)
    rw [← hp]
    ac_rfl

theorem timesXPow_zero (k : Nat) : timesXPow k 0#8 = 0#8 := by
  induction k with
  | zero => rfl
  | succ k ih => rw [timesXPow, ih]; rfl

theorem timesXPow_xor (k : Nat) (a b : Byte) : timesXPow k (a ^^^ b) = timesXPow k a ^^^ timesXPow k b := by
  induction k with
  | zero => rfl
  | succ k ih => simp only [timesXPow, ih, timesX_xor]

theorem timesXPow_timesX (k : Nat) (a : Byte) : timesXPow k (timesX a) = timesX (timesXPow k a) := by
  induction k with
  | zero => rfl
  | succ k ih => simp only [timesXPow, ih]

/-! ## The tables: EXP lists the powers of x, and LOG is its inverse (41_gf_rs.md R133) -/

theorem expAt_succ : ∀ i < 511, expAt (i + 1) = timesX (expAt i) := by decide +kernel

theorem expAt_ne_zero : ∀ i < 512, expAt i ≠ 0 := by decide +kernel

theorem logAt_inverse : ∀ a : Byte, a ≠ 0 → logAt a < 255 ∧ expAt (logAt a) = a := by decide +kernel

theorem expAt_add {i k : Nat} (h : i + k < 512) : expAt (i + k) = timesXPow k (expAt i) := by
  induction k with
  | zero => rfl
  | succ k ih => rw [← Nat.add_assoc, expAt_succ _ (by omega), ih (by omega), timesXPow]

/-! ## The laws of the product -/

@[simp] theorem gfMul_zero (a : Byte) : gfMul a 0#8 = 0#8 := if_pos (.inr rfl)

@[simp] theorem zero_gfMul (a : Byte) : gfMul 0#8 a = 0#8 := if_pos (.inl rfl)

theorem gfMul_comm (a b : Byte) : gfMul a b = gfMul b a := by
  simp only [gfMul, or_comm, Nat.add_comm]

/-- The product by `b = x^LOG[b]` is `LOG[b]` multiplications by `x`. -/
theorem gfMul_eq_timesXPow (a : Byte) {b : Byte} (hb : b ≠ 0) : gfMul a b = timesXPow (logAt b) a := by
  by_cases ha : a = 0#8
  · rw [ha, zero_gfMul, timesXPow_zero]
  · obtain ⟨hla, hea⟩ := logAt_inverse a ha
    obtain ⟨hlb, -⟩ := logAt_inverse b hb
    calc gfMul a b
      _ = expAt (logAt a + logAt b) := if_neg (not_or.2 ⟨ha, hb⟩)
      _ = timesXPow (logAt b) a := by rw [expAt_add (by omega), hea]

@[simp] theorem gfMul_one (a : Byte) : gfMul a 1#8 = a := gfMul_eq_timesXPow a (by decide)

@[simp] theorem one_gfMul (a : Byte) : gfMul 1#8 a = a := by rw [gfMul_comm, gfMul_one]

theorem xor_gfMul (a b c : Byte) : gfMul (a ^^^ b) c = gfMul a c ^^^ gfMul b c := by
  by_cases hc : c = 0#8
  · rw [hc, gfMul_zero, gfMul_zero, gfMul_zero, BitVec.xor_self]
  · simp only [gfMul_eq_timesXPow _ hc, timesXPow_xor]

theorem gfMul_xor (a b c : Byte) : gfMul a (b ^^^ c) = gfMul a b ^^^ gfMul a c := by
  simp only [gfMul_comm a, xor_gfMul]

theorem gfMul_timesX (a b : Byte) : gfMul a (timesX b) = timesX (gfMul a b) := by
  rw [gfMul_comm, gfMul_comm a]
  by_cases ha : a = 0#8
  · rw [ha, gfMul_zero, gfMul_zero]; rfl
  · simp only [gfMul_eq_timesXPow _ ha, timesXPow_timesX]

theorem gfMul_timesXPow (a : Byte) (k : Nat) (b : Byte) : gfMul a (timesXPow k b) = timesXPow k (gfMul a b) := by
  induction k with
  | zero => rfl
  | succ k ih => simp only [timesXPow, gfMul_timesX, ih]

theorem gfMul_assoc (a b c : Byte) : gfMul (gfMul a b) c = gfMul a (gfMul b c) := by
  by_cases hc : c = 0#8
  · simp only [hc, gfMul_zero]
  · simp only [gfMul_eq_timesXPow _ hc, gfMul_timesXPow]

theorem eq_zero_of_gfMul_eq_zero {a b : Byte} (h : gfMul a b = 0) : a = 0 ∨ b = 0 := by
  by_contra hab
  obtain ⟨ha, hb⟩ := not_or.1 hab
  have hla := (logAt_inverse a ha).1
  have hlb := (logAt_inverse b hb).1
  rw [gfMul, if_neg hab] at h
  exact expAt_ne_zero _ (by omega) h

/-! ## The product of polynomials -/

/-- A field product passes through the sum of `a·x^k` to each term's `a`. -/
theorem gfMul_polyProduct (c a b : Byte) : gfMul c (polyProduct a b) = polyProduct (gfMul c a) b := by
  unfold polyProduct
  rw [← List.foldl_hom (gfMul c) (fun acc k => ?_), BitVec.ofNat_eq_ofNat, gfMul_zero]
  split
  · rw [gfMul_xor, gfMul_timesXPow]
  · rfl

theorem one_polyProduct : ∀ b : Byte, polyProduct 1 b = b := by decide +kernel

end Sys2Proof.Machine

namespace Sys2Proof.Proofs

open Sys2Proof.Machine Sys2Proof.Claims

/-- Settles O20: GF_RESULT is an aligned register, and a byte below 24 zero bits is its zero-extension. -/
theorem gfMulWritesTheProduct : Obligations.GfMulWritesTheProduct := by
  intro a b s
  refine ⟨_, exec_eq (.gfMul a b) s, rfl, hostRead_register (by decide) (by decide) ?_⟩
  exact zero_append_eq_setWidth (gfMul a b)

/-- Settles O21: the product of polynomials is linear in its first factor, so it is determined by that of 1. -/
theorem tableProductIsThePolynomialProduct : Obligations.TableProductIsThePolynomialProduct := fun a b =>
  calc gfMul a b
    _ = gfMul a (polyProduct 1 b) := by rw [one_polyProduct]
    _ = polyProduct (gfMul a 1) b := gfMul_polyProduct a 1 b
    _ = polyProduct a b := congrArg (polyProduct · b) (gfMul_one a)

/-- Settles O22: the product by a non-zero byte is a power of `x`, which is additive and commutes with every other. -/
theorem fieldProductLaws : Obligations.FieldProductLaws :=
  ⟨fun a => ⟨gfMul_zero a, zero_gfMul a, gfMul_one a, one_gfMul a⟩, gfMul_comm, gfMul_assoc, gfMul_xor,
    fun _ _ => eq_zero_of_gfMul_eq_zero⟩

end Sys2Proof.Proofs
end

section
/-! PROOF. The generator polynomial and the division register, by their values at the points of GF(256) (41_gf_rs.md
R136 to R144). -/

namespace Sys2Proof.Machine

open Sys2Proof.Claims

/-! ## Evaluation -/

/-- Horner's scheme from the value `acc` of the coefficients already read; from 0 it is `evalPoly`. -/
def horner (x acc : Byte) (p : List Byte) : Byte := p.foldl (fun acc c => gfMul acc x ^^^ c) acc

theorem evalPoly_eq_horner (p : List Byte) (x : Byte) : evalPoly p x = horner x 0 p := rfl

@[simp] theorem horner_nil (x acc : Byte) : horner x acc [] = acc := rfl

@[simp] theorem horner_cons (x acc c : Byte) (p : List Byte) :
    horner x acc (c :: p) = horner x (gfMul acc x ^^^ c) p := rfl

theorem horner_append (x acc : Byte) (p q : List Byte) : horner x acc (p ++ q) = horner x (horner x acc p) q :=
  List.foldl_append ..

theorem horner_xor (x : Byte) {p q : List Byte} (h : p.length = q.length) (a b : Byte) :
    horner x (a ^^^ b) (List.zipWith (· ^^^ ·) p q) = horner x a p ^^^ horner x b q := by
  induction p generalizing q a b with
  | nil => rw [List.length_eq_zero_iff.1 h.symm]; rfl
  | cons c p ih =>
    obtain ⟨d, q, rfl⟩ := List.exists_cons_of_length_eq_add_one h.symm
    have hstep : gfMul (a ^^^ b) x ^^^ (c ^^^ d) = (gfMul a x ^^^ c) ^^^ (gfMul b x ^^^ d) := by
      rw [xor_gfMul]
      ac_rfl
    rw [List.zipWith_cons_cons, horner_cons, hstep, ih (Nat.succ.inj h), horner_cons, horner_cons]

theorem horner_gfMul (x f : Byte) (p : List Byte) (a : Byte) :
    horner x (gfMul a f) (p.map (gfMul · f)) = gfMul (horner x a p) f := by
  induction p generalizing a with
  | nil => rfl
  | cons c p ih =>
    have hstep : gfMul (gfMul a f) x ^^^ gfMul c f = gfMul (gfMul a x ^^^ c) f := by
      rw [gfMul_assoc, gfMul_comm f, ← gfMul_assoc, xor_gfMul]
    rw [List.map_cons, horner_cons, hstep, ih, horner_cons]

/-! ## The generator polynomial -/

/-- Horner's scheme along `mulRoot`: with `v` the value of `p` so far and `prev` its next coefficient, the value of the
product by `x - root` so far is `v * (x - root) + prev`. -/
theorem horner_mulRoot (x root : Byte) (p : List Byte) (prev v : Byte) :
    horner x (gfMul v (x ^^^ root) ^^^ prev) (mulRoot root prev p)
      = gfMul (horner x (gfMul v x ^^^ prev) p) (x ^^^ root) := by
  induction p generalizing prev v with
  | nil =>
    simp only [mulRoot, horner_cons, horner_nil, xor_gfMul, gfMul_xor, gfMul_assoc, gfMul_comm root]
    ac_rfl
  | cons c p ih =>
    rw [mulRoot, horner_cons, horner_cons, ← ih]
    congr 1
    simp only [xor_gfMul, gfMul_xor, gfMul_assoc, gfMul_comm root]
    ac_rfl

theorem evalPoly_mulRoot (x root : Byte) (p : List Byte) :
    evalPoly (mulRoot root 0 p) x = gfMul (evalPoly p x) (x ^^^ root) := by
  rw [evalPoly_eq_horner, evalPoly_eq_horner]
  simpa using horner_mulRoot x root p 0 0

theorem evalPoly_genPoly {n i : Nat} (h : i < n) : evalPoly (genPoly n) (expAt i) = 0 := by
  induction n with
  | zero => omega
  | succ n ih =>
    rw [genPoly, evalPoly_mulRoot]
    obtain hlt | rfl := Nat.lt_succ_iff_lt_or_eq.1 h
    · rw [ih hlt, BitVec.ofNat_eq_ofNat, zero_gfMul]
    · rw [BitVec.xor_self, gfMul_zero, BitVec.ofNat_eq_ofNat]

theorem genPoly_eq_cons (n : Nat) : genPoly n = 1 :: (genPoly n).tail := by
  induction n with
  | zero => rfl
  | succ n ih =>
    have hlead : 1 ^^^ gfMul (expAt n) 0 = 1 := by simp
    rw [genPoly, ih, mulRoot, hlead, List.tail_cons]

/-! ## The division register -/

theorem rsStep_zero (g : List Byte) : rsStep g (List.replicate g.length 0) 0 = List.replicate g.length 0 := by
  cases g with
  | nil => rfl
  | cons c g => simp [rsStep, List.replicate_succ, ← List.replicate_succ']

theorem foldl_rsStep_zeros (g : List Byte) (z : Nat) :
    (List.replicate z 0).foldl (rsStep g) (List.replicate g.length 0) = List.replicate g.length 0 := by
  induction z with
  | zero => rfl
  | succ z ih => rw [List.replicate_succ, List.foldl_cons, rsStep_zero, ih]

theorem genPoly_tail_length (n : Nat) : (genPoly n).tail.length = n := by
  rw [List.length_tail, genPoly_length, Nat.add_sub_cancel]

theorem rsRemainder_zeros_append (n z : Nat) (data : List Byte) :
    rsRemainder n (List.replicate z 0 ++ data) = rsRemainder n data := by
  have hz := foldl_rsStep_zeros (genPoly n).tail z
  rw [genPoly_tail_length] at hz
  rw [rsRemainder, List.foldl_append, hz, rsRemainder]

/-- One data byte through the register, at a root `x` of the generator `1 :: g`: with `v` the value of the data so far,
the value of data and register is multiplied by `x`. -/
theorem horner_rsStep {g r : List Byte} {x : Byte} (hr : r.length = g.length) (hne : r ≠ [])
    (hg : horner x 1#8 g = 0#8) (v d : Byte) :
    horner x (gfMul v x ^^^ d) (rsStep g r d) = gfMul (horner x v r) x := by
  obtain ⟨c, r, rfl⟩ := List.exists_cons_of_ne_nil hne
  have hacc : gfMul v x ^^^ d = (gfMul v x ^^^ c) ^^^ gfMul 1#8 (d ^^^ c) := by
    rw [one_gfMul, BitVec.xor_assoc, BitVec.xor_comm d, ← BitVec.xor_assoc c, BitVec.xor_self, BitVec.zero_xor]
  have hl : (r ++ [0#8]).length = (g.map (gfMul · (d ^^^ c))).length := by simpa using hr
  calc horner x (gfMul v x ^^^ d) (rsStep g (c :: r) d)
    _ = horner x ((gfMul v x ^^^ c) ^^^ gfMul 1#8 (d ^^^ c))
          (List.zipWith (· ^^^ ·) (r ++ [0#8]) (g.map (gfMul · (d ^^^ c)))) := by rw [← hacc]; rfl
    _ = horner x (gfMul v x ^^^ c) (r ++ [0#8]) ^^^ gfMul (horner x 1#8 g) (d ^^^ c) := by
      rw [horner_xor x hl, horner_gfMul]
    _ = gfMul (horner x v (c :: r)) x := by rw [hg, horner_append]; simp

theorem horner_foldl_rsStep {g : List Byte} {x : Byte} (hne : g ≠ []) (hg : horner x 1#8 g = 0#8) (data : List Byte)
    {r : List Byte} (hr : r.length = g.length) {v : Byte} (hv : horner x v r = 0#8) :
    horner x (horner x v data) (data.foldl (rsStep g) r) = 0#8 := by
  induction data generalizing r v with
  | nil => exact hv
  | cons d data ih =>
    have hrne : r ≠ [] := fun h => hne (List.length_eq_zero_iff.1 (by rw [← hr, h, List.length_nil]))
    exact ih (rsStep_length g r d hr hne) (by rw [horner_rsStep hr hrne hg, hv, zero_gfMul])

theorem horner_zeros (x : Byte) (n : Nat) : horner x 0#8 (List.replicate n 0#8) = 0#8 := by
  induction n with
  | zero => rfl
  | succ n ih => rw [List.replicate_succ, horner_cons, zero_gfMul, BitVec.xor_self, ih]

/-- The data followed by its remainder vanishes at every root of the generator (41_gf_rs.md R138, R144). -/
theorem evalPoly_append_rsRemainder {n i : Nat} (h : i < n) (data : List Byte) :
    evalPoly (data ++ rsRemainder n data) (expAt i) = 0 := by
  have hl := genPoly_tail_length n
  have hg : horner (expAt i) 1#8 (genPoly n).tail = 0#8 := by
    have hroot := evalPoly_genPoly h
    rw [genPoly_eq_cons, evalPoly_eq_horner] at hroot
    simpa using hroot
  rw [evalPoly_eq_horner, horner_append]
  exact horner_foldl_rsStep (List.ne_nil_of_length_pos (by omega)) hg data (by rw [hl, List.length_replicate])
    (horner_zeros _ n)

/-! ## What RS_GEN leaves in the codeword buffer -/

section

variable {k n : Nat} {s : State}

theorem rsGenEffect_zero (hn : n = 0) : rsGenEffect k n s = s := if_pos hn

theorem rsGenEffect_supported (hn : n ≠ 0) (hs : n ∈ s.ecLengths) :
    rsGenEffect k n s = { s with cw := storeBytes s.cw k (rsRemainder n (dataCodewords s k)) } := by
  rw [rsGenEffect, if_neg hn, if_pos hs]

theorem rsGenEffect_unsupported (hn : n ≠ 0) (hs : n ∉ s.ecLengths) :
    rsGenEffect k n s = { s with cw := storeBytes s.cw k (List.replicate n 0), ecunsup := true } := by
  rw [rsGenEffect, if_neg hn, if_neg hs]

/-- RS_GEN writes nothing but CW and ECUNSUP. -/
theorem complete_rsGenEffect_frame (k n : Nat) (s : State) :
    complete (rsGenEffect k n s) =
      { s with
        cw := (rsGenEffect k n s).cw
        ecunsup := (rsGenEffect k n s).ecunsup
        busy := false
        done := true } := by
  unfold rsGenEffect
  split
  · rfl
  · split <;> rfl

theorem cwByte_rsGenEffect_supported (hfit : k + n ≤ 4096) (hn : n ≠ 0) (hs : n ∈ s.ecLengths) (j : Nat) :
    cwByte (rsGenEffect k n s) j =
      if k ≤ j ∧ j < k + n then (rsRemainder n (dataCodewords s k)).getD (j - k) 0 else cwByte s j := by
  have hl := rsRemainder_length n (dataCodewords s k) hn
  rw [rsGenEffect_supported hn hs, cwByte_storeBytes _ _ (by omega), hl]

theorem cwByte_rsGenEffect_unsupported (hfit : k + n ≤ 4096) (hn : n ≠ 0) (hs : n ∉ s.ecLengths) (j : Nat) :
    cwByte (rsGenEffect k n s) j = if k ≤ j ∧ j < k + n then 0 else cwByte s j := by
  have hstore := cwByte_storeBytes s (List.replicate n 0) (i := k) (by simpa) j
  rw [rsGenEffect_unsupported hn hs]
  refine hstore.trans ?_
  simp

theorem cwByte_rsGenEffect_outside (hfit : k + n ≤ 4096) {j : Nat} (hj : j < k ∨ k + n ≤ j) :
    cwByte (rsGenEffect k n s) j = cwByte s j := by
  by_cases hn : n = 0
  · rw [rsGenEffect_zero hn]
  · by_cases hs : n ∈ s.ecLengths
    · rw [cwByte_rsGenEffect_supported hfit hn hs, if_neg (by omega)]
    · rw [cwByte_rsGenEffect_unsupported hfit hn hs, if_neg (by omega)]

@[simp] theorem dataCodewords_length (s : State) (k : Nat) : (dataCodewords s k).length = k := by
  rw [dataCodewords, List.length_map, List.length_range]

@[simp] theorem getElem_dataCodewords {j : Nat} (h : j < (dataCodewords s k).length) :
    (dataCodewords s k)[j] = cwByte s j := by
  simp only [dataCodewords, List.getElem_map, List.getElem_range]

/-- With a supported length the codewords are the data and then its remainder. -/
theorem dataCodewords_rsGenEffect (hfit : k + n ≤ 4096) (hn : n ≠ 0) (hs : n ∈ s.ecLengths) :
    dataCodewords (rsGenEffect k n s) (k + n) = dataCodewords s k ++ rsRemainder n (dataCodewords s k) := by
  have hl := rsRemainder_length n (dataCodewords s k) hn
  refine List.ext_getElem (by simp [hl]) fun j hj _ => ?_
  rw [dataCodewords_length] at hj
  rw [getElem_dataCodewords, cwByte_rsGenEffect_supported hfit hn hs, List.getElem_append]
  by_cases hjk : j < k
  · simp [hjk]
  · rw [if_pos ⟨Nat.le_of_not_lt hjk, hj⟩, List.getD_eq_getElem _ _ (by omega)]
    simp [hjk]

end

end Sys2Proof.Machine

namespace Sys2Proof.Proofs

open Sys2Proof.Machine Sys2Proof.Claims

/-- Settles O25: multiplying by `x - α^n` keeps the roots and adds `α^n`. -/
theorem generatorPolynomialHasItsRoots : Obligations.GeneratorPolynomialHasItsRoots := fun n _ =>
  ⟨genPoly_length n, by rw [genPoly_eq_cons]; rfl, fun _ => evalPoly_genPoly⟩

/-- Settles O26: a zero byte leaves the zero register as it is. -/
theorem leadingZerosDoNotChangeTheRemainder : Obligations.LeadingZerosDoNotChangeTheRemainder :=
  fun n data z => ⟨rsRemainder_zeros_append n z data, rfl⟩

/-- Settles O23: each length falls under one of the three branches of the effect. -/
theorem rsGenWritesTheEcCodewords : Obligations.RsGenWritesTheEcCodewords := by
  intro s hfit k n
  have hecu : (complete (rsGenEffect k n s)).ecunsup = (rsGenEffect k n s).ecunsup := complete_ecunsup _
  refine ⟨_, exec_eq .rsGen s, complete_rsGenEffect_frame k n s, fun j => cwByte_rsGenEffect_outside hfit,
    fun hn => hecu.trans (by rw [rsGenEffect_zero hn]),
    fun hn hs => ⟨hecu.trans (by rw [rsGenEffect_supported hn hs]), fun i hi => ?_⟩,
    fun hn hs => ⟨hecu.trans (by rw [rsGenEffect_unsupported hn hs]), fun i hi => ?_⟩⟩
  · exact (cwByte_rsGenEffect_supported hfit hn hs _).trans (by rw [if_pos (by omega), Nat.add_sub_cancel_left])
  · exact (cwByte_rsGenEffect_unsupported hfit hn hs _).trans (if_pos (by omega))

/-- Settles O24: the codewords are the data and its remainder, which vanish together at every root. -/
theorem codewordsVanishAtTheRoots : Obligations.CodewordsVanishAtTheRoots := by
  intro s hfit hn hs
  refine ⟨_, exec_eq .rsGen s, fun i hi => ?_⟩
  have hcw := dataCodewords_rsGenEffect hfit (Nat.ne_zero_of_lt hi) hs
  exact (congrArg (evalPoly · (expAt i)) hcw).trans (evalPoly_append_rsRemainder hi _)

end Sys2Proof.Proofs
end

section
/-! PROOF. The zigzag order in closed form (42_matrix.md R175): column pair after column pair, row after row. -/

namespace Sys2Proof.Machine

open Sys2Proof.Claims

/-! ## Blocks of one length -/

section

variable {α : Type} {f : Nat → List α} {w : Nat} (hw : ∀ k, (f k).length = w)

include hw

theorem length_flatMap_range (m : Nat) : ((List.range m).flatMap f).length = w * m := by
  simp [List.length_flatMap, hw, Nat.mul_comm]

/-- Entry `i` of block `k` stands behind `k` whole blocks. -/
theorem getElem?_flatMap_range {m k i : Nat} (hk : k < m) (hi : i < w) :
    ((List.range m).flatMap f)[w * k + i]? = (f k)[i]? := by
  induction m with
  | zero => exact absurd hk (Nat.not_lt_zero k)
  | succ m ih =>
    rw [List.range_succ, List.flatMap_append, List.getElem?_append, length_flatMap_range hw]
    by_cases hkm : k < m
    · have hlt : w * k + i < w * m :=
        calc w * k + i < w * (k + 1) := by rw [Nat.mul_succ]; omega
          _ ≤ w * m := Nat.mul_le_mul_left w hkm
      rw [if_pos hlt, ih hkm]
    · obtain rfl : k = m := by omega
      rw [if_neg (by omega), Nat.add_sub_cancel_left, List.flatMap_singleton]

end

/-! ## The zigzag -/

@[simp] theorem zigzagPair_length (n right : Nat) (up : Bool) : (zigzagPair n right up).length = 2 * n :=
  length_flatMap_range (w := 2) (fun _ => rfl) n

/-- The cell of a pair that has `t` rows before it, in the right (0) or the left (1) column. -/
theorem getElem?_zigzagPair {n t b : Nat} (right : Nat) (up : Bool) (ht : t < n) (hb : b < 2) :
    (zigzagPair n right up)[2 * t + b]? = some (if up then n - 1 - t else t, right - b) := by
  refine Eq.trans (getElem?_flatMap_range (w := 2) (fun _ => rfl) ht hb) ?_
  match b with
  | 0 => rfl
  | 1 => rfl

/-- The right column of pair `k`: from the pair at column 6 on everything moves one column to the left. -/
def pairColumn (n k : Nat) : Nat := if 8 ≤ n - 1 - 2 * k then n - 1 - 2 * k else n - 2 - 2 * k

theorem zigzagFrom_eq_flatMap {n m : Nat} (hn : n = 2 * m + 1) (fuel k right : Nat) (hfuel : m ≤ fuel + k)
    (hright : right = if 6 ≤ n - 1 - 2 * k then n - 1 - 2 * k else n - 2 - 2 * k) :
    zigzagFrom n fuel k right =
      (List.range' k (m - k)).flatMap fun j => zigzagPair n (pairColumn n j) (decide (j % 2 = 0)) := by
  induction fuel generalizing k right with
  | zero => rw [zigzagFrom, Nat.sub_eq_zero_of_le (by omega)]; rfl
  | succ fuel ih =>
    rw [zigzagFrom]
    by_cases hk : k < m
    · have hcol : (if right = 6 then 5 else right) = pairColumn n k := by unfold pairColumn; split_ifs at * <;> omega
      have hnext := ih (k + 1) (pairColumn n k - 2) (by omega) (by unfold pairColumn; split_ifs <;> omega)
      rw [if_pos (by split_ifs at hright <;> omega), hcol, show m - k = (m - (k + 1)) + 1 by omega, List.range'_succ,
        List.flatMap_cons, ← hnext]
    · rw [if_neg (by split_ifs at hright <;> omega), Nat.sub_eq_zero_of_le (by omega)]; rfl

theorem zigzag_eq_flatMap {n m : Nat} (hn : n = 2 * m + 1) (hm : 3 ≤ m) :
    zigzag n = (List.range m).flatMap fun k => zigzagPair n (pairColumn n k) (decide (k % 2 = 0)) := by
  rw [zigzag, zigzagFrom_eq_flatMap hn n 0 (n - 1) (by omega) (by split_ifs <;> omega), List.range_eq_range']
  rfl

section

variable {v n r c : Nat} (hn : n = 4 * v + 17)

include hn

theorem zigzag_length : (zigzag n).length = n * (n - 1) := by
  rw [zigzag_eq_flatMap (m := 2 * v + 8) (by omega) (by omega), length_flatMap_range (w := 2 * n) (fun _ => by simp),
    show n - 1 = 2 * (2 * v + 8) by omega]
  ring

theorem getElem?_zigzag (hr : r < n) (hc : c < n) (hc6 : c ≠ 6) : (zigzag n)[zigzagPlace n r c]? = some (r, c) := by
  have hk : columnsRightOf n c / 2 < 2 * v + 8 := by unfold columnsRightOf; split_ifs <;> omega
  have hcol : pairColumn n (columnsRightOf n c / 2) - columnsRightOf n c % 2 = c := by
    unfold pairColumn columnsRightOf; split_ifs <;> omega
  rw [zigzag_eq_flatMap (m := 2 * v + 8) (by omega) (by omega)]
  simp only [zigzagPlace]
  rw [Nat.add_assoc, getElem?_flatMap_range (w := 2 * n) (fun _ => by simp) hk (by split_ifs <;> omega),
    getElem?_zigzagPair _ _ (by split_ifs <;> omega) (by omega), hcol]
  congr 2
  simp only [decide_eq_true_eq]
  split_ifs <;> omega

/-- The zigzag has as many entries as there are cells outside column 6, and each such cell has a place: it is a
permutation of them. -/
theorem zigzag_perm : (zigzag n).Perm (List.range n ×ˢ (List.range n).erase 6) := by
  have hnd : (List.range n ×ˢ (List.range n).erase 6).Nodup := List.nodup_range.product (List.nodup_range.erase 6)
  have hlen : (List.range n ×ˢ (List.range n).erase 6).length = n * (n - 1) := by
    rw [List.length_product, List.length_erase_of_mem (List.mem_range.2 (by omega)), List.length_range]
  refine (List.Subperm.perm_of_length_le (List.subperm_of_subset hnd fun p hp => ?_) ?_).symm
  · obtain ⟨hr, hc⟩ := List.mem_product.1 hp
    obtain ⟨hc6, hc⟩ := List.nodup_range.mem_erase_iff.1 hc
    exact List.mem_of_getElem? (getElem?_zigzag hn (List.mem_range.1 hr) (List.mem_range.1 hc) hc6)
  · rw [zigzag_length hn, hlen]

theorem zigzag_nodup : (zigzag n).Nodup :=
  (zigzag_perm hn).nodup_iff.2 (List.nodup_range.product (List.nodup_range.erase 6))

theorem mem_zigzag : (r, c) ∈ zigzag n ↔ r < n ∧ c < n ∧ c ≠ 6 := by
  rw [(zigzag_perm hn).mem_iff, List.mem_product, List.nodup_range.mem_erase_iff, List.mem_range, List.mem_range]
  tauto

end

end Sys2Proof.Machine

namespace Sys2Proof.Proofs

open Sys2Proof.Machine

/-- Settles O29: every cell outside column 6 has its place, and there are no more places than such cells. -/
theorem zigzagVisitsEachCellOnce : Obligations.ZigzagVisitsEachCellOnce := fun _ _ _ =>
  ⟨zigzag_nodup rfl, fun _ _ => mem_zigzag rfl, fun _ _ => getElem?_zigzag rfl⟩

end Sys2Proof.Proofs
end

section
/-! PROOF. PLACE as one list of writes: the free cells in zigzag order, each with its stream bit (42_matrix.md R176,
R177). -/

namespace Sys2Proof.Machine

open Sys2Proof.Claims

/-! ## The size of a matrix -/

theorem hasMatrix_size {s : State} (h : hasMatrix s) :
    ∃ v, 1 ≤ v ∧ v ≤ 29 ∧ s.matSize.toNat = 4 * v + 17 := by
  obtain ⟨hv, hg⟩ := h
  simp only [geometryLegal, Bool.or_eq_true, Bool.and_eq_true, decide_eq_true_eq, versionLegal_iff] at hg
  obtain ⟨hv0, -⟩ | ⟨⟨h1, h29⟩, hn⟩ := hg
  · exact absurd hv0 hv
  · exact ⟨_, h1, h29, hn⟩

theorem hasMatrix_size_le {s : State} (h : hasMatrix s) : s.matSize.toNat ≤ 133 := by
  obtain ⟨v, -, hv, hn⟩ := hasMatrix_size h
  omega

/-! ## The placement loop -/

/-- The UNSET cells of a list, in its order. -/
def unsetCells (m : Matrix) (ps : List (Nat × Nat)) : List (Nat × Nat) :=
  ps.filter fun p => decide ((loadCell m p.1 p.2).kind = .unset)

theorem freeCells_eq_unsetCells (s : State) : freeCells s = unsetCells s.mat (zigzag s.matSize.toNat) := rfl

/-- Storing to a cell outside a list leaves the UNSET cells of the list. -/
theorem unsetCells_storeCell {p : Nat × Nat} {ps : List (Nat × Nat)} (hp : p ∉ ps) (m : Matrix) (x : MatCell) :
    unsetCells (storeCell m p.1 p.2 x) ps = unsetCells m ps := by
  refine List.filter_congr fun q hq => ?_
  have hne : ¬ (q.1 = p.1 ∧ q.2 = p.2 ∧ p.1 < 133 ∧ p.2 < 133) := fun ⟨h1, h2, _⟩ => hp (Prod.ext h1 h2 ▸ hq)
  rw [loadCell_storeCell, if_neg hne]

/-- DATA cells with the stream bits from bit `k` on. -/
def dataWrites (stream : Nat → Bool) (k : Nat) (ps : List (Nat × Nat)) : List CellWrite :=
  (ps.zipIdx k).map fun e => (e.1.1, e.1.2, ⟨.data, stream e.2⟩)

theorem mem_dataWrites {stream : Nat → Bool} {ps : List (Nat × Nat)} {w : CellWrite} :
    w ∈ dataWrites stream 0 ps ↔ ∃ i, ps[i]? = some (w.1, w.2.1) ∧ w.2.2 = ⟨.data, stream i⟩ := by
  simp only [dataWrites, List.mem_map, Prod.exists, List.mk_mem_zipIdx_iff_getElem?]
  constructor
  · rintro ⟨r, c, i, hi, rfl⟩
    exact ⟨i, hi, rfl⟩
  · rintro ⟨i, hi, hx⟩
    exact ⟨_, _, i, hi, by rw [← hx]⟩

theorem foldl_placeVisit (stream : Nat → Bool) {ps : List (Nat × Nat)} (hps : ps.Nodup) (m : Matrix) (k : Nat) :
    ps.foldl (placeVisit stream) (m, k) =
      (storeCells m (dataWrites stream k (unsetCells m ps)), k + (unsetCells m ps).length) := by
  induction ps generalizing m k with
  | nil => rfl
  | cons p ps ih =>
    obtain ⟨hp, hps⟩ := List.nodup_cons.1 hps
    rw [List.foldl_cons, placeVisit]
    by_cases hu : (loadCell m p.1 p.2).kind = .unset
    · have hcons : unsetCells m (p :: ps) = p :: unsetCells m ps := List.filter_cons_of_pos (by simpa using hu)
      rw [if_pos hu, ih hps, unsetCells_storeCell hp, hcons]
      simp [dataWrites, Nat.add_assoc, Nat.add_comm 1]
    · have hcons : unsetCells m (p :: ps) = unsetCells m ps := List.filter_cons_of_neg (by simpa using hu)
      rw [if_neg hu, ih hps, hcons]

section

variable {s : State} (h : hasMatrix s)

include h

theorem freeCells_nodup : (freeCells s).Nodup := by
  obtain ⟨v, -, -, hn⟩ := hasMatrix_size h
  exact (zigzag_nodup hn).filter _

theorem mem_freeCells {r c : Nat} :
    (r, c) ∈ freeCells s ↔
      (r < s.matSize.toNat ∧ c < s.matSize.toNat ∧ c ≠ 6) ∧ (loadCell s.mat r c).kind = .unset := by
  obtain ⟨v, -, -, hn⟩ := hasMatrix_size h
  rw [freeCells, List.mem_filter, mem_zigzag hn, decide_eq_true_eq]

/-- The number of free cells fits PLACED (10_state.md R36). -/
theorem freeCells_length_lt : (freeCells s).length < 2 ^ 16 := by
  obtain ⟨v, -, hv, hn⟩ := hasMatrix_size h
  calc (freeCells s).length ≤ (zigzag s.matSize.toNat).length := List.length_filter_le _ _
    _ = s.matSize.toNat * (s.matSize.toNat - 1) := zigzag_length hn
    _ ≤ 133 * 132 := Nat.mul_le_mul (by omega) (by omega)
    _ < 2 ^ 16 := by decide

theorem placeLoop_eq (stream : Nat → Bool) :
    placeLoop s.matSize.toNat stream s.mat =
      (storeCells s.mat (dataWrites stream 0 (freeCells s)), (freeCells s).length) := by
  obtain ⟨v, -, -, hn⟩ := hasMatrix_size h
  rw [placeLoop, foldl_placeVisit stream (zigzag_nodup hn), Nat.zero_add, freeCells_eq_unsetCells]

theorem loadCell_placeEffect_free (N : Nat) {i r c : Nat} (hi : (freeCells s)[i]? = some (r, c)) :
    loadCell (placeEffect N s).mat r c = ⟨.data, streamBit s N i⟩ := by
  obtain ⟨⟨hr, hc, -⟩, -⟩ := (mem_freeCells h).1 (List.mem_of_getElem? hi)
  have hn := hasMatrix_size_le h
  rw [placeEffect_mat, placeLoop_eq h]
  refine loadCell_storeCells_of_mem _ _ _ _ _ (by omega) (by omega) (mem_dataWrites.2 ⟨i, hi, rfl⟩) ?_
  rintro w hw ⟨rfl, rfl⟩
  obtain ⟨j, hj, hx⟩ := mem_dataWrites.1 hw
  obtain rfl : i = j := List.getElem?_inj (List.getElem?_eq_some_iff.1 hi).1 (freeCells_nodup h) |>.1 (hi.trans hj.symm)
  exact hx

theorem loadCell_placeEffect_of_not_free (N : Nat) {r c : Nat} (hf : (r, c) ∉ freeCells s) :
    loadCell (placeEffect N s).mat r c = loadCell s.mat r c := by
  rw [placeEffect_mat, placeLoop_eq h]
  refine loadCell_storeCells_of_not_mem _ _ _ _ ?_
  rintro w hw ⟨rfl, rfl⟩
  obtain ⟨j, hj, -⟩ := mem_dataWrites.1 hw
  exact hf (List.mem_of_getElem? hj)

theorem placeEffect_placed_toNat (N : Nat) : (placeEffect N s).placed.toNat = (freeCells s).length := by
  rw [placeEffect_placed, placeLoop_eq h]
  exact Nat.mod_eq_of_lt (freeCells_length_lt h)

theorem placeEffect_trunc_eq (N : Nat) :
    (placeEffect N s).trunc = (s.trunc || decide ((freeCells s).length < 8 * N)) := by
  rw [placeEffect_trunc, placeLoop_eq h]

end

end Sys2Proof.Machine

namespace Sys2Proof.Proofs

open Sys2Proof.Machine

/-- Settles O30: the placement loop is one list of writes, one for each free cell. -/
theorem placeFillsTheFreeCellsInOrder : Obligations.PlaceFillsTheFreeCellsInOrder := fun s h =>
  ⟨_, exec_eq .place s, rfl, fun _ _ => loadCell_placeEffect_free h _, fun _ _ => loadCell_placeEffect_of_not_free h _,
    placeEffect_placed_toNat h _, placeEffect_trunc_eq h _⟩

end Sys2Proof.Proofs
end

section
/-! PROOF. A memory in canonical form is what its keys read as (10_state.md R41, R42). -/

namespace Sys2Proof.Machine

/-- In canonical form a key lists a value exactly when it reads as something other than an unlisted key does. -/
theorem Mem.mem_iff_load {α : Type} {blank : Option α} {ex : Nat → Bool} {m : Mem α} (h : wf blank ex m)
    {k : Nat} {x : α} : (k, x) ∈ m ↔ load blank k m = some x ∧ some x ≠ blank := by
  constructor
  · intro hm
    exact ⟨by rw [load, find_of_mem h.1 hm], (h.2 _ hm).2⟩
  · rintro ⟨hl, hb⟩
    unfold load at hl
    split at hl
    · rename_i y hf
      exact mem_of_find (hf.trans hl)
    · exact absurd hl.symm hb

theorem Mem.eq_of_load_eq {α : Type} {blank : Option α} {ex : Nat → Bool} {m m' : Mem α} (h : wf blank ex m)
    (h' : wf blank ex m') (hl : ∀ k, load blank k m = load blank k m') : m = m' := by
  have hmem : ∀ e, e ∈ m ↔ e ∈ m' := fun e => by rw [← Prod.eta e, mem_iff_load h, mem_iff_load h', hl]
  have hnd : ∀ {m : Mem α}, wf blank ex m → m.Nodup := fun h => h.1.imp fun hlt heq => absurd (heq ▸ hlt) (lt_irrefl _)
  exact ((List.perm_ext_iff_of_nodup (hnd h) (hnd h')).2 hmem).eq_of_pairwise
    (fun _ _ _ _ h1 h2 => absurd h1 (lt_asymm h2)) h.1 h'.1

theorem load_cellBlank (row : Mem MatCell) (c : Nat) :
    Mem.load cellBlank c row = some ((Mem.load cellBlank c row).getD MatCell.blank) := by
  unfold Mem.load
  split <;> rfl

theorem load_rowBlank (m : Matrix) (r : Nat) : Mem.load rowBlank r m = some (loadRow m r) := by
  unfold loadRow Mem.load
  split <;> rfl

theorem load_cellBlank_loadRow (m : Matrix) (r c : Nat) :
    Mem.load cellBlank c (loadRow m r) = some (loadCell m r c) := by
  unfold loadCell
  split
  · assumption
  · rename_i hn
    exact absurd (hn.symm.trans (load_cellBlank _ c)) (by simp)

/-- Two matrix memories in canonical form with the same cells are the same. -/
theorem matrix_eq_of_loadCell_eq {m m' : Matrix} (h : matWf m) (h' : matWf m')
    (hl : ∀ r c, loadCell m r c = loadCell m' r c) : m = m' := by
  refine Mem.eq_of_load_eq h.1 h'.1 fun r => ?_
  have hrow : loadRow m r = loadRow m' r := Mem.eq_of_load_eq (matWf_row h r) (matWf_row h' r) fun c => by
    rw [load_cellBlank_loadRow, load_cellBlank_loadRow, hl]
  rw [load_rowBlank, load_rowBlank, hrow]

end Sys2Proof.Machine
end

section
/-! PROOF. MASK cell by cell (42_matrix.md R181 to R183). -/

namespace Sys2Proof.Machine

open Sys2Proof.Claims

theorem squareCells_nodup (n : Nat) : (squareCells n).Nodup := List.nodup_range.product List.nodup_range

/-- What MASK makes of a cell that it visits. -/
def maskedCell (id : BitVec 3) (r c : Nat) (x : MatCell) : MatCell :=
  if x.kind = .data ∧ maskCond id r c = true then ⟨.data, !x.val⟩ else x

theorem maskedCell_maskedCell (id : BitVec 3) (r c : Nat) (x : MatCell) :
    maskedCell id r c (maskedCell id r c x) = x := by
  obtain ⟨k, b⟩ := x
  by_cases h : k = .data ∧ maskCond id r c = true
  · obtain ⟨rfl, hm⟩ := h
    simp [maskedCell, hm]
  · simp [maskedCell, h]

theorem loadCell_maskVisit (id : BitVec 3) (m : Matrix) {p : Nat × Nat} (hp : p.1 < 133 ∧ p.2 < 133) (r c : Nat) :
    loadCell (maskVisit id m p) r c =
      if (r, c) = p then maskedCell id r c (loadCell m r c) else loadCell m r c := by
  obtain ⟨a, b⟩ := p
  unfold maskVisit maskedCell
  by_cases hrc : (r, c) = (a, b)
  · cases hrc
    rw [if_pos (rfl : (r, c) = (r, c))]
    split_ifs
    · rw [loadCell_storeCell, if_pos ⟨rfl, rfl, hp⟩]
    · rfl
  · rw [if_neg hrc]
    split_ifs
    · rw [loadCell_storeCell, if_neg fun h => hrc (Prod.ext h.1 h.2.1)]
    · rfl

theorem loadCell_maskFold (id : BitVec 3) {ps : List (Nat × Nat)} (hps : ps.Nodup)
    (hb : ∀ p ∈ ps, p.1 < 133 ∧ p.2 < 133) (m : Matrix) (r c : Nat) :
    loadCell (ps.foldl (maskVisit id) m) r c =
      if (r, c) ∈ ps then maskedCell id r c (loadCell m r c) else loadCell m r c := by
  induction ps generalizing m with
  | nil => rfl
  | cons p ps ih =>
    obtain ⟨hp, hps⟩ := List.nodup_cons.1 hps
    rw [List.foldl_cons, ih hps fun q hq => hb q (List.mem_cons_of_mem _ hq),
      loadCell_maskVisit id m (hb p (List.mem_cons_self ..))]
    by_cases hrc : (r, c) = p
    · subst hrc
      simp [hp]
    · simp [hrc]

theorem loadCell_maskEffect {s : State} (h : hasMatrix s) (id : BitVec 3) (r c : Nat) :
    loadCell (maskEffect id s).mat r c =
      if r < s.matSize.toNat ∧ c < s.matSize.toNat then maskedCell id r c (loadCell s.mat r c)
      else loadCell s.mat r c := by
  have hn := hasMatrix_size_le h
  have hb : ∀ p ∈ squareCells s.matSize.toNat, p.1 < 133 ∧ p.2 < 133 := fun p hp => by
    rw [mem_squareCells] at hp
    omega
  rw [maskEffect_mat, loadCell_maskFold id (squareCells_nodup _) hb]
  simp only [mem_squareCells]

theorem hasMatrix_maskEffect {s : State} (h : hasMatrix s) (id : BitVec 3) : hasMatrix (maskEffect id s) := h

theorem maskEffect_maskEffect_mat {s : State} (hw : matWf s.mat) (h : hasMatrix s) (id : BitVec 3) :
    (maskEffect id (maskEffect id s)).mat = s.mat := by
  refine matrix_eq_of_loadCell_eq (matWf_maskEffect id (matWf_maskEffect id hw)) hw fun r c => ?_
  rw [loadCell_maskEffect (hasMatrix_maskEffect h id), maskEffect_matSize, loadCell_maskEffect h]
  split_ifs
  · exact maskedCell_maskedCell id r c _
  · rfl

end Sys2Proof.Machine

namespace Sys2Proof.Proofs

open Sys2Proof.Machine

/-- Settles O33: the condition of each id is its row of the table. -/
theorem maskConditions : Obligations.MaskConditions := fun _ _ =>
  ⟨decide_eq_true_iff, decide_eq_true_iff, decide_eq_true_iff, decide_eq_true_iff, decide_eq_true_iff,
    decide_eq_true_iff, decide_eq_true_iff, decide_eq_true_iff⟩

/-- Settles O34: MASK visits each cell of the square once and no other. -/
theorem maskInvertsTheDataCells : Obligations.MaskInvertsTheDataCells := by
  intro s h
  refine ⟨_, exec_eq .mask s, rfl, fun r c => (loadCell_maskEffect h _ r c).trans ?_⟩
  simp only [maskedCell, ← ite_and, and_assoc]

/-- Settles O35: inverting a cell twice restores it, and the canonical form is determined by its cells. -/
theorem maskTwiceRestoresTheMatrix : Obligations.MaskTwiceRestoresTheMatrix := by
  rintro s _ _ hinv h ⟨⟩ ⟨⟩
  exact maskEffect_maskEffect_mat hinv.mat h _

end Sys2Proof.Proofs
end

section
/-! PROOF. What each step of MAT_INIT writes, cell by cell (42_matrix.md R162 to R170). A list of writes is described by
its membership: which cells it names, and with what content. -/

namespace Sys2Proof.Machine

open Sys2Proof.Claims

/-- A list of writes that gives the cell one content if `P` holds, and does not name it otherwise. -/
theorem loadCell_storeCells_of_mem_iff {ws : List CellWrite} {r c : Nat} {P : Prop} [Decidable P] {y : MatCell}
    (h : ∀ x, (r, c, x) ∈ ws ↔ P ∧ x = y) (hr : r < 133) (hc : c < 133) (m : Matrix) :
    loadCell (storeCells m ws) r c = if P then y else loadCell m r c := by
  split_ifs with hP
  · refine loadCell_storeCells_of_mem ws m r c y hr hc ((h y).2 ⟨hP, rfl⟩) ?_
    rintro ⟨_, _, x⟩ hw ⟨rfl, rfl⟩
    exact ((h x).1 hw).2
  · refine loadCell_storeCells_of_not_mem ws m r c ?_
    rintro ⟨_, _, x⟩ hw ⟨rfl, rfl⟩
    exact hP ((h x).1 hw).1

/-! ## Finder patterns and separators -/

/-- The 7 × 7 cells of the finder pattern with its top-left cell at `o`. -/
def inPattern (o : Nat × Nat) (r c : Nat) : Prop := o.1 ≤ r ∧ r < o.1 + 7 ∧ o.2 ≤ c ∧ c < o.2 + 7

/-- The cells of the finder pattern at `o` and those around it. -/
def inZone (o : Nat × Nat) (r c : Nat) : Prop := o.1 ≤ r + 1 ∧ r ≤ o.1 + 7 ∧ o.2 ≤ c + 1 ∧ c ≤ o.2 + 7

theorem inPattern.inZone {o : Nat × Nat} {r c : Nat} (h : inPattern o r c) : inZone o r c := by
  obtain ⟨hr, hr7, hc, hc7⟩ := h
  exact ⟨by omega, by omega, by omega, by omega⟩

section

variable {n r0 c0 r c : Nat} {x : MatCell}

theorem mem_finderAt : (r, c, x) ∈ finderAt r0 c0 ↔
    inPattern (r0, c0) r c ∧ x = functionCell (decide (max (gap (r - r0) 3) (gap (c - c0) 3) ≠ 2)) := by
  simp only [inPattern, finderAt, List.mem_map, mem_squareCells, Prod.mk.injEq]
  constructor
  · rintro ⟨⟨a, b⟩, ⟨ha, hb⟩, rfl, rfl, rfl⟩
    exact ⟨by omega, by simp only [Nat.add_sub_cancel_left]⟩
  · rintro ⟨⟨hr, hr7, hc, hc7⟩, rfl⟩
    exact ⟨(r - r0, c - c0), ⟨by omega, by omega⟩, by omega, by omega, rfl⟩

theorem mem_separatorAt : (r, c, x) ∈ separatorAt n r0 c0 ↔
    ((r < n ∧ c < n) ∧ inZone (r0, c0) r c ∧ ¬ inPattern (r0, c0) r c) ∧ x = functionCell false := by
  simp only [inZone, inPattern, separatorAt, List.mem_map, List.mem_filter, mem_squareCells, Prod.mk.injEq,
    Bool.and_eq_true, Bool.not_eq_true', Bool.and_eq_false_iff, decide_eq_true_eq, decide_eq_false_iff_not]
  constructor
  · rintro ⟨⟨a, b⟩, h, rfl, rfl, rfl⟩
    exact ⟨by omega, rfl⟩
  · rintro ⟨h, rfl⟩
    exact ⟨(r + 1 - r0, c + 1 - c0), by omega, by omega, by omega, rfl⟩

end

theorem exists_mem_finderOrigins {n : Nat} {p : Nat × Nat → Prop} :
    (∃ o ∈ finderOrigins n, p o) ↔ p (0, 0) ∨ p (0, n - 7) ∨ p (n - 7, 0) := by
  simp [finderOrigins]

section

variable {n r c : Nat} (hn : 17 ≤ n) (hr : r < n) (hc : c < n)

include hn hr hc

theorem inFinder_eq_some_iff (d : Nat × Nat) : inFinder n r c = some d ↔
    ∃ o ∈ finderOrigins n, inPattern o r c ∧ d = (r - o.1, c - o.2) := by
  obtain ⟨i, j⟩ := d
  simp only [exists_mem_finderOrigins, inPattern, inFinder, Prod.mk.injEq]
  split_ifs
  iterate 3 · rw [Option.some.injEq, Prod.mk.injEq]; omega
  · rw [false_iff]; omega

theorem inFinderZone_iff : inFinderZone n r c = true ↔ ∃ o ∈ finderOrigins n, inZone o r c := by
  simp only [exists_mem_finderOrigins, inZone, inFinderZone, Bool.or_eq_true, Bool.and_eq_true, decide_eq_true_eq]
  omega

theorem inFinderZone_of_inFinder {d : Nat × Nat} (h : inFinder n r c = some d) : inFinderZone n r c = true := by
  obtain ⟨o, ho, hp, -⟩ := (inFinder_eq_some_iff hn hr hc d).1 h
  exact (inFinderZone_iff hn hr hc).2 ⟨o, ho, hp.inZone⟩

/-- The three finder patterns lie so far apart that no separator reaches another pattern. -/
theorem finderOrigin_unique {o o' : Nat × Nat} (ho : o ∈ finderOrigins n) (ho' : o' ∈ finderOrigins n)
    (hz : inZone o r c) (hp : inPattern o' r c) : o = o' := by
  obtain ⟨i, j⟩ := o
  obtain ⟨i', j'⟩ := o'
  simp only [finderOrigins, List.mem_cons, List.not_mem_nil, or_false, Prod.mk.injEq, inZone, inPattern] at *
  omega

/-- The value of a cell that a finder pattern or its separator covers. -/
def finderValue (n r c : Nat) : Bool :=
  match inFinder n r c with
  | some d => decide (max (gap d.1 3) (gap d.2 3) ≠ 2)
  | none => false

theorem mem_finderWrites {x : MatCell} : (r, c, x) ∈ finderWrites n ↔
    inFinderZone n r c = true ∧ x = functionCell (finderValue n r c) := by
  simp only [finderWrites, List.mem_flatMap, List.mem_append, mem_finderAt, mem_separatorAt,
    inFinderZone_iff hn hr hc]
  cases hf : inFinder n r c with
  | some d =>
    obtain ⟨o, ho, hp, rfl⟩ := (inFinder_eq_some_iff hn hr hc d).1 hf
    simp only [finderValue, hf]
    constructor
    · rintro ⟨o', ho', ⟨hp', rfl⟩ | ⟨⟨-, hz, hnp⟩, -⟩⟩
      · obtain rfl := finderOrigin_unique hn hr hc ho' ho hp'.inZone hp
        exact ⟨⟨o', ho, hp.inZone⟩, rfl⟩
      · obtain rfl := finderOrigin_unique hn hr hc ho' ho hz hp
        exact absurd hp hnp
    · rintro ⟨-, rfl⟩
      exact ⟨o, ho, .inl ⟨hp, rfl⟩⟩
  | none =>
    have hnp : ∀ o ∈ finderOrigins n, ¬ inPattern o r c := fun o ho hp =>
      absurd ((inFinder_eq_some_iff hn hr hc _).2 ⟨o, ho, hp, rfl⟩) (by simp [hf])
    simp only [finderValue, hf]
    constructor
    · rintro ⟨o, ho, ⟨hp, -⟩ | ⟨⟨-, hz, -⟩, rfl⟩⟩
      · exact absurd hp (hnp o ho)
      · exact ⟨⟨o, ho, hz⟩, rfl⟩
    · rintro ⟨⟨o, ho, hz⟩, rfl⟩
      exact ⟨o, ho, .inr ⟨⟨⟨hr, hc⟩, hz, hnp o ho⟩, rfl⟩⟩

end

/-! ## Timing patterns -/

/-- A cell of a timing pattern (42_matrix.md R164). -/
abbrev inTiming (n r c : Nat) : Prop := (r = 6 ∧ 8 ≤ c ∧ c ≤ n - 9) ∨ (c = 6 ∧ 8 ≤ r ∧ r ≤ n - 9)

theorem mem_timingWrites {n r c : Nat} {x : MatCell} (hn : 17 ≤ n) :
    (r, c, x) ∈ timingWrites n ↔ inTiming n r c ∧ x = functionCell (decide (max r c % 2 = 0)) := by
  simp only [timingWrites, List.mem_flatMap, List.mem_range'_1, List.mem_cons, List.not_mem_nil, or_false,
    Prod.mk.injEq]
  constructor
  · rintro ⟨t, ht, ⟨rfl, rfl, rfl⟩ | ⟨rfl, rfl, rfl⟩⟩
    · exact ⟨by omega, by rw [max_eq_right (by omega)]⟩
    · exact ⟨by omega, by rw [max_eq_left (by omega)]⟩
  · rintro ⟨⟨rfl, h8, h9⟩ | ⟨rfl, h8, h9⟩, rfl⟩
    · exact ⟨c, by omega, .inl ⟨rfl, rfl, by rw [max_eq_right (by omega)]⟩⟩
    · exact ⟨r, by omega, .inr ⟨rfl, rfl, by rw [max_eq_left (by omega)]⟩⟩

theorem ite_inTiming (n r c : Nat) (y : MatCell) :
    (if inTiming n r c then functionCell (decide (max r c % 2 = 0)) else y) =
      if r = 6 ∧ 8 ≤ c ∧ c ≤ n - 9 then functionCell (decide (c % 2 = 0))
      else if c = 6 ∧ 8 ≤ r ∧ r ≤ n - 9 then functionCell (decide (r % 2 = 0)) else y := by
  by_cases hrow : r = 6 ∧ 8 ≤ c ∧ c ≤ n - 9
  · rw [if_pos (.inl hrow), if_pos hrow, max_eq_right (by omega)]
  · by_cases hcol : c = 6 ∧ 8 ≤ r ∧ r ≤ n - 9
    · rw [if_pos (.inr hcol), if_neg hrow, if_pos hcol, max_eq_left (by omega)]
    · rw [if_neg (not_or.2 ⟨hrow, hcol⟩), if_neg hrow, if_neg hcol]

/-! ## Alignment patterns -/

theorem alignmentCentres_eq_printedCentres :
    ∀ v < 30, 2 ≤ v → alignmentCentres v (4 * v + 17) = printedCentres v := by decide

theorem printedCentres_bounds : ∀ v < 30, 2 ≤ v → ∀ a ∈ printedCentres v, 6 ≤ a ∧ a ≤ 4 * v + 10 := by decide

/-- No two alignment patterns meet: the centres are at least 5 apart. -/
theorem printedCentres_apart : ∀ v < 30, ∀ a ∈ printedCentres v, ∀ b ∈ printedCentres v, a = b ∨ 5 ≤ gap a b := by
  decide

theorem mem_alignmentAt {a b r c : Nat} {x : MatCell} (ha : 6 ≤ a) (hb : 6 ≤ b) : (r, c, x) ∈ alignmentAt a b ↔
    (gap r a ≤ 2 ∧ gap c b ≤ 2) ∧ x = functionCell (decide (max (gap r a) (gap c b) ≠ 1)) := by
  have hgap : ∀ {i k : Nat}, 6 ≤ k → ∀ p, i = k + p - 2 → gap i k = gap p 2 := by unfold gap; omega
  simp only [alignmentAt, List.mem_map, mem_squareCells, Prod.mk.injEq]
  constructor
  · rintro ⟨⟨i, j⟩, ⟨hi, hj⟩, hr, hc, rfl⟩
    rw [hgap ha i hr.symm, hgap hb j hc.symm]
    exact ⟨by unfold gap; omega, rfl⟩
  · rintro ⟨⟨hr, hc⟩, rfl⟩
    unfold gap at hr hc
    refine ⟨(r + 2 - a, c + 2 - b), by omega, by omega, by omega, ?_⟩
    rw [hgap ha (r + 2 - a) (by omega), hgap hb (c + 2 - b) (by omega)]

theorem mem_alignmentHits {v n r c : Nat} {d : Nat × Nat} : d ∈ alignmentHits v n r c ↔
    ∃ a ∈ printedCentres v, ∃ b ∈ printedCentres v, (a, b) ∉ [(6, 6), (6, n - 7), (n - 7, 6)] ∧
      (gap r a ≤ 2 ∧ gap c b ≤ 2) ∧ d = (gap r a, gap c b) := by
  simp only [alignmentHits, List.mem_flatMap, List.mem_map, List.mem_filter, Bool.and_eq_true, decide_eq_true_eq,
    and_assoc, eq_comm (a := d)]

/-- A cell is covered by at most one alignment pattern. -/
theorem alignmentHits_unique {v n r c : Nat} (hv : v < 30) {d d' : Nat × Nat} (hd : d ∈ alignmentHits v n r c)
    (hd' : d' ∈ alignmentHits v n r c) : d = d' := by
  obtain ⟨a, ha, b, hb, -, ⟨hra, hcb⟩, rfl⟩ := mem_alignmentHits.1 hd
  obtain ⟨a', ha', b', hb', -, ⟨hra', hcb'⟩, rfl⟩ := mem_alignmentHits.1 hd'
  have hsame : ∀ {i k k' : Nat}, gap i k ≤ 2 → gap i k' ≤ 2 → k = k' ∨ 5 ≤ gap k k' → k = k' := by
    unfold gap; omega
  rw [hsame hra hra' (printedCentres_apart v hv a ha a' ha'), hsame hcb hcb' (printedCentres_apart v hv b hb b' hb')]

theorem mem_alignmentWrites_iff_hit {v n r c : Nat} {x : MatCell} (hn : n = 4 * v + 17) (h2 : 2 ≤ v) (hv : v < 30) :
    (r, c, x) ∈ alignmentWrites v n ↔
      ∃ d ∈ alignmentHits v n r c, x = functionCell (decide (max d.1 d.2 ≠ 1)) := by
  have hmem : ∀ a ∈ printedCentres v, ∀ b ∈ printedCentres v, ((r, c, x) ∈ alignmentAt a b ↔
      (gap r a ≤ 2 ∧ gap c b ≤ 2) ∧ x = functionCell (decide (max (gap r a) (gap c b) ≠ 1))) := fun a ha b hb =>
    mem_alignmentAt (printedCentres_bounds v hv h2 a ha).1 (printedCentres_bounds v hv h2 b hb).1
  simp only [alignmentWrites, hn, alignmentCentres_eq_printedCentres v hv h2, List.mem_flatMap, mem_alignmentHits,
    List.mem_ite_nil_left]
  constructor
  · rintro ⟨a, ha, b, hb, hne, hx⟩
    obtain ⟨hcov, rfl⟩ := (hmem a ha b hb).1 hx
    exact ⟨_, ⟨a, ha, b, hb, hne, hcov, rfl⟩, rfl⟩
  · rintro ⟨d, ⟨a, ha, b, hb, hne, hcov, rfl⟩, rfl⟩
    exact ⟨a, ha, b, hb, hne, (hmem a ha b hb).2 ⟨hcov, rfl⟩⟩

theorem mem_alignmentWrites {v n r c : Nat} {x : MatCell} (hn : n = 4 * v + 17) (h2 : 2 ≤ v) (hv : v < 30) :
    (r, c, x) ∈ alignmentWrites v n ↔ alignmentHits v n r c ≠ [] ∧
      x = functionCell ((alignmentHits v n r c).all fun d => decide (max d.1 d.2 ≠ 1)) := by
  rw [mem_alignmentWrites_iff_hit hn h2 hv]
  have hall : ∀ d ∈ alignmentHits v n r c,
      ((alignmentHits v n r c).all fun d => decide (max d.1 d.2 ≠ 1)) = decide (max d.1 d.2 ≠ 1) := fun d hd => by
    rw [Bool.eq_iff_iff, List.all_eq_true]
    exact ⟨fun h => h d hd, fun h e he => alignmentHits_unique hv hd he ▸ h⟩
  constructor
  · rintro ⟨d, hd, rfl⟩
    exact ⟨List.ne_nil_of_mem hd, by rw [hall d hd]⟩
  · rintro ⟨hne, rfl⟩
    obtain ⟨d, hd⟩ := List.exists_mem_of_ne_nil _ hne
    exact ⟨d, hd, by rw [hall d hd]⟩

/-! ## Format, version and dark cells -/

/-- The writes of a cleared word to two cells for each of its bits. -/
theorem mem_reservedWrites_zero {k len r c : Nat} {x : MatCell} {f g : Nat → Nat × Nat} :
    (r, c, x) ∈ ((List.range k).flatMap fun i => [((f i).1, (f i).2, reservedCell ((0 : BitVec len).getLsbD i)),
      ((g i).1, (g i).2, reservedCell ((0 : BitVec len).getLsbD i))]) ↔
      (∃ i < k, (r, c) = f i ∨ (r, c) = g i) ∧ x = reservedCell false := by
  simp only [List.mem_flatMap, List.mem_range, List.mem_cons, List.not_mem_nil, or_false, Prod.ext_iff,
    BitVec.ofNat_eq_ofNat, BitVec.getLsbD_zero, ← and_assoc, ← or_and_right, exists_and_right]

theorem fmtCell1_strip {i r c : Nat} (hi : i < 15) (h : (r, c) = fmtCell1 i) :
    (c = 8 ∧ (r ≤ 5 ∨ r = 7 ∨ r = 8)) ∨ (r = 8 ∧ (c ≤ 5 ∨ c = 7)) := by
  unfold fmtCell1 at h
  split_ifs at h <;> rw [Prod.mk.injEq] at h <;> omega

theorem fmtCell2_strip {n i r c : Nat} (hn : 17 ≤ n) (hi : i < 15) (h : (r, c) = fmtCell2 i n) :
    (r = 8 ∧ n - 8 ≤ c ∧ c < n) ∨ (c = 8 ∧ n - 7 ≤ r ∧ r < n) := by
  unfold fmtCell2 at h
  split_ifs at h <;> rw [Prod.mk.injEq] at h <;> omega

section

variable {n r c : Nat} {x : MatCell} (hr : r < n) (hc : c < n)

include hr hc

theorem inFormat_iff (hn : 17 ≤ n) :
    inFormat n r c = true ↔ ∃ i < 15, (r, c) = fmtCell1 i ∨ (r, c) = fmtCell2 i n := by
  simp only [inFormat, Bool.or_eq_true, Bool.and_eq_true, decide_eq_true_eq]
  constructor
  · rintro (⟨rfl, ((h | rfl) | rfl) | h⟩ | ⟨rfl, (h | rfl) | h⟩)
    · exact ⟨r, by omega, .inl (by rw [fmtCell1, if_pos h])⟩
    · exact ⟨6, by omega, .inl rfl⟩
    · exact ⟨7, by omega, .inl rfl⟩
    · refine ⟨r + 15 - n, by omega, .inr ?_⟩
      rw [fmtCell2, if_neg (by omega), Prod.mk.injEq]
      omega
    · refine ⟨14 - c, by omega, .inl ?_⟩
      rw [fmtCell1, if_neg (by omega), if_neg (by omega), if_neg (by omega), if_neg (by omega), Prod.mk.injEq]
      omega
    · exact ⟨8, by omega, .inl rfl⟩
    · refine ⟨n - 1 - c, by omega, .inr ?_⟩
      rw [fmtCell2, if_pos (by omega), Prod.mk.injEq]
      omega
  · rintro ⟨i, hi, h | h⟩
    · have := fmtCell1_strip hi h
      omega
    · have := fmtCell2_strip hn hi h
      omega

theorem inVersion_iff (hn : 17 ≤ n) :
    inVersion n r c = true ↔ ∃ i < 18, (r, c) = verCellTr i n ∨ (r, c) = verCellBl i n := by
  simp only [inVersion, Bool.or_eq_true, Bool.and_eq_true, decide_eq_true_eq, verCellTr, verCellBl, Prod.mk.injEq]
  constructor
  · rintro (⟨⟨h6, h11⟩, h8⟩ | ⟨⟨h6, h11⟩, h8⟩)
    · exact ⟨3 * r + (c - (n - 11)), by omega, .inl (by omega)⟩
    · exact ⟨3 * c + (r - (n - 11)), by omega, .inr (by omega)⟩
  · rintro ⟨i, hi, h | h⟩ <;> omega

theorem mem_fmtWrites_zero (hn : 17 ≤ n) :
    (r, c, x) ∈ fmtWrites n 0 ↔ inFormat n r c = true ∧ x = reservedCell false := by
  rw [inFormat_iff hr hc hn]
  exact mem_reservedWrites_zero

theorem mem_verWrites_zero (hn : 17 ≤ n) :
    (r, c, x) ∈ verWrites n 0 ↔ inVersion n r c = true ∧ x = reservedCell false := by
  rw [inVersion_iff hr hc hn]
  exact mem_reservedWrites_zero

end

/-! ## The whole list -/

section

variable {n r c : Nat} {x : MatCell} (hn : 17 ≤ n)

include hn

theorem finderWrites_inside (h : (r, c, x) ∈ finderWrites n) : r < n ∧ c < n := by
  simp only [finderWrites, List.mem_flatMap, List.mem_append, mem_finderAt, mem_separatorAt] at h
  obtain ⟨o, ho, ⟨⟨hr, hr7, hc, hc7⟩, -⟩ | ⟨⟨hrc, -⟩, -⟩⟩ := h
  · simp only [finderOrigins, List.mem_cons, List.not_mem_nil, or_false] at ho
    rcases ho with rfl | rfl | rfl <;> omega
  · exact hrc

theorem fmtWrites_zero_inside (h : (r, c, x) ∈ fmtWrites n 0) : r < n ∧ c < n := by
  obtain ⟨⟨i, hi, h | h⟩, -⟩ := mem_reservedWrites_zero.1 h
  · have := fmtCell1_strip hi h
    omega
  · have := fmtCell2_strip hn hi h
    omega

theorem verWrites_zero_inside (h : (r, c, x) ∈ verWrites n 0) : r < n ∧ c < n := by
  obtain ⟨⟨i, hi, h | h⟩, -⟩ := mem_reservedWrites_zero.1 h
  · rw [verCellTr, Prod.mk.injEq] at h
    omega
  · rw [verCellBl, Prod.mk.injEq] at h
    omega

end

theorem alignmentWrites_inside {v n r c : Nat} {x : MatCell} (hn : n = 4 * v + 17) (h2 : 2 ≤ v) (hv : v < 30)
    (h : (r, c, x) ∈ alignmentWrites v n) : r < n ∧ c < n := by
  obtain ⟨d, hd, -⟩ := (mem_alignmentWrites_iff_hit hn h2 hv).1 h
  obtain ⟨a, ha, b, hb, -, ⟨hra, hcb⟩, -⟩ := mem_alignmentHits.1 hd
  have ha' := printedCentres_bounds v hv h2 a ha
  have hb' := printedCentres_bounds v hv h2 b hb
  unfold gap at hra hcb
  omega

/-- Every write of MAT_INIT lies in the square. -/
theorem initWrites_inside {v n r c : Nat} {x : MatCell} (hn : n = 4 * v + 17) (hv : v < 30)
    (h : (r, c, x) ∈ initWrites v n) : r < n ∧ c < n := by
  have hn17 : 17 ≤ n := by omega
  simp only [initWrites, List.mem_append, List.mem_ite_nil_right, List.mem_singleton, darkWrite, Prod.mk.injEq] at h
  obtain ((((h | h) | ⟨h2, h⟩) | h) | ⟨-, h⟩) | ⟨rfl, rfl, -⟩ := h
  · exact finderWrites_inside hn17 h
  · obtain ⟨ht, -⟩ := (mem_timingWrites hn17).1 h
    omega
  · exact alignmentWrites_inside hn h2 hv h
  · exact fmtWrites_zero_inside hn17 h
  · exact verWrites_zero_inside hn17 h
  · omega

/-- What the six steps leave in a cleared square, the last step first. -/
theorem loadCell_initWrites {v n r c : Nat} {m : Matrix} (hn : n = 4 * v + 17) (hv : v < 30)
    (hr : r < n) (hc : c < n) (hm : loadCell m r c = MatCell.blank) :
    loadCell (storeCells m (initWrites v n)) r c = patternCell v r c := by
  have hr133 : r < 133 := by omega
  have hc133 : c < 133 := by omega
  have hn17 : 17 ≤ n := by omega
  have hali : ∀ x, (r, c, x) ∈ (if 1 < v then alignmentWrites v n else []) ↔
      (1 < v ∧ alignmentHits v n r c ≠ []) ∧
        x = functionCell ((alignmentHits v n r c).all fun d => decide (max d.1 d.2 ≠ 1)) := fun x => by
    rw [List.mem_ite_nil_right, and_assoc]
    exact and_congr_right fun h2 => mem_alignmentWrites hn h2 hv
  have hver : ∀ x, (r, c, x) ∈ (if 7 ≤ v then verWrites n 0 else []) ↔
      (7 ≤ v ∧ inVersion n r c = true) ∧ x = reservedCell false := fun x => by
    rw [List.mem_ite_nil_right, and_assoc, mem_verWrites_zero hr hc hn17]
  have hdark : ∀ x, (r, c, x) ∈ [darkWrite n] ↔ (r = n - 8 ∧ c = 8) ∧ x = functionCell true := fun x => by
    rw [List.mem_singleton, darkWrite, Prod.mk.injEq, Prod.mk.injEq, and_assoc]
  simp only [initWrites, storeCells_append]
  rw [loadCell_storeCells_of_mem_iff hdark hr133 hc133, loadCell_storeCells_of_mem_iff hver hr133 hc133,
    loadCell_storeCells_of_mem_iff (fun _ => mem_fmtWrites_zero hr hc hn17) hr133 hc133,
    loadCell_storeCells_of_mem_iff hali hr133 hc133,
    loadCell_storeCells_of_mem_iff (fun _ => mem_timingWrites hn17) hr133 hc133,
    loadCell_storeCells_of_mem_iff (fun _ => mem_finderWrites hn17 hr hc) hr133 hc133, hm, ite_inTiming]
  cases hf : inFinder n r c with
  | some d =>
    have hz : inFinderZone n r c = true := inFinderZone_of_inFinder hn17 hr hc hf
    simp only [patternCell, ← hn, hf, finderValue, hz, if_true, functionCell, reservedCell]
  | none => simp only [patternCell, ← hn, hf, finderValue, functionCell, reservedCell]

end Sys2Proof.Machine
end

section
/-! PROOF. MAT_INIT as a whole, and a PLACE that follows it (42_matrix.md R160, R178). -/

namespace Sys2Proof.Machine

open Sys2Proof.Claims

theorem exec_matInit (s : State) : exec .matInit s = .next (complete (matInitEffect s.latch.version s)) := rfl

/-- MAT_INIT writes nothing but M, MAT_INFO and PLACED. -/
theorem complete_matInitEffect_frame (v : BitVec 5) (s : State) :
    complete (matInitEffect v s) =
      { s with
        mat := (complete (matInitEffect v s)).mat
        matVersion := v
        matSize := (complete (matInitEffect v s)).matSize
        placed := 0
        busy := false
        done := true } := by
  simp only [complete, matInitEffect]

theorem hasMatrix_complete {s : State} (h : hasMatrix s) : hasMatrix (complete s) := h

section

variable {v : BitVec 5} {s : State} {r c : Nat} (h1 : 1 ≤ v.toNat) (h29 : v.toNat ≤ 29)

include h1 h29

theorem matInitEffect_matSize_toNat : (matInitEffect v s).matSize.toNat = 4 * v.toNat + 17 := by
  rw [matInitEffect_matSize, toNat_sizeOf ((versionLegal_iff v).2 ⟨h1, h29⟩), sizeOf]

theorem hasMatrix_matInitEffect : hasMatrix (matInitEffect v s) := by
  have hv : versionLegal v = true := (versionLegal_iff v).2 ⟨h1, h29⟩
  refine ⟨fun h0 => ?_, by simp [geometryLegal, hv, toNat_sizeOf hv]⟩
  obtain rfl : v = 0 := h0
  exact absurd h1 (by decide)

theorem loadCell_matInitEffect_inside (hm : matWf s.mat) (hr : r < 4 * v.toNat + 17) (hc : c < 4 * v.toNat + 17) :
    loadCell (matInitEffect v s).mat r c = patternCell v.toNat r c := by
  rw [matInitEffect_mat, sizeOf]
  exact loadCell_initWrites rfl (by omega) hr hc ((loadCell_clearSquare _ hm r c).trans (if_pos ⟨hr, hc⟩))

theorem loadCell_matInitEffect_outside (hm : matWf s.mat) (hrc : ¬ (r < 4 * v.toNat + 17 ∧ c < 4 * v.toNat + 17)) :
    loadCell (matInitEffect v s).mat r c = loadCell s.mat r c := by
  rw [matInitEffect_mat, sizeOf, loadCell_storeCells_of_not_mem, loadCell_clearSquare _ hm, if_neg hrc]
  rintro ⟨_, _, x⟩ hw ⟨rfl, rfl⟩
  exact hrc (initWrites_inside rfl (by omega) hw)

end

theorem patternCell_dark (v : Nat) : patternCell v (4 * v + 17 - 8) 8 = ⟨.function, true⟩ := if_pos ⟨rfl, rfl⟩

/-- Column 6, which the zigzag leaves out, holds patterns only. -/
theorem patternCell_column6_kind {v : Nat} (r : Nat) : (patternCell v r 6).kind ≠ .unset := by
  have hzone : ¬ (8 ≤ r ∧ r ≤ 4 * v + 17 - 9) → inFinderZone (4 * v + 17) r 6 = true := fun h => by
    simp only [inFinderZone, Bool.or_eq_true, Bool.and_eq_true, decide_eq_true_eq]
    omega
  simp only [patternCell]
  cases inFinder (4 * v + 17) r 6 with
  | some d => split_ifs <;> exact Kind.noConfusion
  | none =>
    split_ifs with _ _ _ _ _ htiming hz
    iterate 7 · exact Kind.noConfusion
    · exact absurd (hzone fun h => htiming ⟨trivial, h⟩) hz

/-- When column 6 holds no UNSET cell, every UNSET cell of the square is on the way of the placement loop. -/
theorem placeEffect_kind {s : State} (h : hasMatrix s)
    (h6 : ∀ r < s.matSize.toNat, (loadCell s.mat r 6).kind ≠ .unset) (N : Nat) {r c : Nat}
    (hr : r < s.matSize.toNat) (hc : c < s.matSize.toNat) :
    (loadCell (placeEffect N s).mat r c).kind ≠ .unset ∧
      ((loadCell s.mat r c).kind = .unset → (loadCell (placeEffect N s).mat r c).kind = .data) := by
  by_cases hu : (loadCell s.mat r c).kind = .unset
  · have hc6 : c ≠ 6 := by rintro rfl; exact h6 r hr hu
    obtain ⟨i, hi⟩ := List.mem_iff_getElem?.1 ((mem_freeCells h).2 ⟨⟨hr, hc, hc6⟩, hu⟩)
    rw [loadCell_placeEffect_free h N hi]
    exact ⟨Kind.noConfusion, fun _ => rfl⟩
  · rw [loadCell_placeEffect_of_not_free h N fun hf => hu ((mem_freeCells h).1 hf).2]
    exact ⟨hu, fun hu' => absurd hu' hu⟩

end Sys2Proof.Machine

namespace Sys2Proof.Proofs

open Sys2Proof.Machine Sys2Proof.Claims

/-- Settles O60, by evaluation of the formula for each version. -/
theorem alignmentCentresAreThePrintedOnes : Obligations.AlignmentCentresAreThePrintedOnes := fun v h2 h29 =>
  alignmentCentres_eq_printedCentres v (by omega) h2

/-- Settles O27: clearing and every later write stay inside the square, and the dark module is written last. -/
theorem matInitSetsTheGeometry : Obligations.MatInitSetsTheGeometry := by
  intro s hm h1 h29 n
  refine ⟨_, exec_matInit s, complete_matInitEffect_frame _ s, ?_, fun r c hrc => ?_, ?_⟩ <;>
    simp only [complete_mat, complete_matSize]
  · exact matInitEffect_matSize_toNat h1 h29
  · exact loadCell_matInitEffect_outside h1 h29 hm hrc
  · rw [loadCell_matInitEffect_inside h1 h29 hm (by omega) (by omega)]
    exact patternCell_dark _

/-- Settles O28: each step's list of writes by its cells and contents, a later step over an earlier one. -/
theorem matInitStampsTheSymbol : Obligations.MatInitStampsTheSymbol := by
  intro s hm h1 h29
  refine ⟨_, exec_matInit s, fun r c hr hc => ?_⟩
  rw [complete_mat, loadCell_matInitEffect_inside h1 h29 hm hr hc]

/-- Settles O31: MAT_INIT leaves no UNSET cell in column 6, and PLACE fills every UNSET cell of the others. -/
theorem placeLeavesNoCellUnset : Obligations.PlaceLeavesNoCellUnset := by
  intro s hm h1 h29
  have ht : hasMatrix (complete (matInitEffect s.latch.version s)) :=
    hasMatrix_complete (hasMatrix_matInitEffect h1 h29)
  have h6 : ∀ r < (complete (matInitEffect s.latch.version s)).matSize.toNat,
      (loadCell (complete (matInitEffect s.latch.version s)).mat r 6).kind ≠ .unset := fun r hr => by
    rw [complete_matSize, matInitEffect_matSize_toNat h1 h29] at hr
    rw [complete_mat, loadCell_matInitEffect_inside h1 h29 hm hr (by omega)]
    exact patternCell_column6_kind r
  refine ⟨_, exec_matInit s, ?_⟩
  generalize complete (matInitEffect s.latch.version s) = t at ht h6 ⊢
  exact fun l => ⟨_, exec_eq .place _, fun r c => placeEffect_kind (s := { t with latch := l }) ht h6 _⟩

end Sys2Proof.Proofs
end

section
/-! PROOF. STAMP_FMT and STAMP_VER as lists of writes: a word's bits, each to two cells of its own (43_stamp.md R201, R202,
R206, R207). -/

namespace Sys2Proof.Machine

open Sys2Proof.Claims

/-! ## The bits of a word, two cells for each -/

/-- The writes of `k` bits, bit `i` to the cells `f i` and `g i`. -/
def bitWrites (k : Nat) (f g : Nat → Nat × Nat) (b : Nat → Bool) : List CellWrite :=
  (List.range k).flatMap fun i => [((f i).1, (f i).2, reservedCell (b i)), ((g i).1, (g i).2, reservedCell (b i))]

theorem fmtWrites_eq_bitWrites (n : Nat) (w : BitVec 15) :
    fmtWrites n w = bitWrites 15 fmtCell1 (fmtCell2 · n) w.getLsbD := rfl

theorem verWrites_eq_bitWrites (n : Nat) (w : BitVec 18) :
    verWrites n w = bitWrites 18 (verCellTr · n) (verCellBl · n) w.getLsbD := rfl

/-- The cells `f i` and `g i` of the bits below `k` lie in M, and no cell belongs to two bits. -/
structure CellsOfBits (k : Nat) (f g : Nat → Nat × Nat) : Prop where
  inside : ∀ {i r c}, i < k → (r, c) = f i ∨ (r, c) = g i → r < 133 ∧ c < 133
  unique : ∀ {i j r c}, i < k → j < k → (r, c) = f i ∨ (r, c) = g i → (r, c) = f j ∨ (r, c) = g j → i = j

section

variable {k : Nat} {f g : Nat → Nat × Nat} {b : Nat → Bool} {r c : Nat}

theorem mem_bitWrites {x : MatCell} :
    (r, c, x) ∈ bitWrites k f g b ↔ ∃ i < k, ((r, c) = f i ∨ (r, c) = g i) ∧ x = reservedCell (b i) := by
  simp only [bitWrites, List.mem_flatMap, List.mem_range, List.mem_cons, List.not_mem_nil, or_false, Prod.ext_iff,
    ← and_assoc, ← or_and_right]

theorem loadCell_bitWrites_of_cell (h : CellsOfBits k f g) (m : Matrix) {i : Nat} (hi : i < k)
    (hp : (r, c) = f i ∨ (r, c) = g i) : loadCell (storeCells m (bitWrites k f g b)) r c = reservedCell (b i) := by
  obtain ⟨hr, hc⟩ := h.inside hi hp
  refine loadCell_storeCells_of_mem _ m r c _ hr hc (mem_bitWrites.2 ⟨i, hi, hp, rfl⟩) ?_
  rintro ⟨_, _, x⟩ hw ⟨rfl, rfl⟩
  obtain ⟨j, hj, hp', rfl⟩ := mem_bitWrites.1 hw
  rw [h.unique hi hj hp hp']

theorem loadCell_bitWrites_of_no_cell (m : Matrix) (hp : ∀ i < k, (r, c) ≠ f i ∧ (r, c) ≠ g i) :
    loadCell (storeCells m (bitWrites k f g b)) r c = loadCell m r c := by
  refine loadCell_storeCells_of_not_mem _ m r c ?_
  rintro ⟨_, _, x⟩ hw ⟨rfl, rfl⟩
  obtain ⟨i, hi, hf | hg, -⟩ := mem_bitWrites.1 hw
  · exact (hp i hi).1 hf
  · exact (hp i hi).2 hg

end

/-! ## The format and the version cells -/

theorem hasMatrix_size_ge {s : State} (h : hasMatrix s) : 21 ≤ s.matSize.toNat := by
  obtain ⟨v, hv, -, hn⟩ := hasMatrix_size h
  omega

theorem fmtCell1_injective : ∀ i < 15, ∀ j < 15, fmtCell1 i = fmtCell1 j → i = j := by decide

theorem fmtCell2_injective {n i j : Nat} (hn : 17 ≤ n) (hi : i < 15) (hj : j < 15)
    (h : fmtCell2 i n = fmtCell2 j n) : i = j := by
  unfold fmtCell2 at h
  split_ifs at h <;> rw [Prod.mk.injEq] at h <;> omega

theorem fmtCell1_ne_fmtCell2 {n i j : Nat} (hn : 17 ≤ n) (hi : i < 15) (hj : j < 15) : fmtCell1 i ≠ fmtCell2 j n := by
  intro h
  have h1 := fmtCell1_strip hi (r := (fmtCell1 i).1) (c := (fmtCell1 i).2) rfl
  have h2 := fmtCell2_strip hn hj (r := (fmtCell1 i).1) (c := (fmtCell1 i).2) h
  omega

/-- Each copy names a bit's cell once, and the two copies lie in different strips (43_stamp.md R202). -/
theorem fmtCells_cellsOfBits {n : Nat} (hn : 17 ≤ n) (hn' : n ≤ 133) : CellsOfBits 15 fmtCell1 (fmtCell2 · n) where
  inside hi := by
    rintro (h | h)
    · have := fmtCell1_strip hi h
      omega
    · have := fmtCell2_strip hn hi h
      omega
  unique hi hj := by
    rintro (h | h) (h' | h')
    · exact fmtCell1_injective _ hi _ hj (h.symm.trans h')
    · exact absurd (h.symm.trans h') (fmtCell1_ne_fmtCell2 hn hi hj)
    · exact absurd (h'.symm.trans h) (fmtCell1_ne_fmtCell2 hn hj hi)
    · exact fmtCell2_injective hn hi hj (h.symm.trans h')

/-- Quotient and remainder by 3 determine the bit, and one block lies in rows 0 to 5 and the other below them
(43_stamp.md R207). -/
theorem verCells_cellsOfBits {n : Nat} (hn : 17 ≤ n) (hn' : n ≤ 133) :
    CellsOfBits 18 (verCellTr · n) (verCellBl · n) where
  inside hi := by
    simp only [verCellTr, verCellBl, Prod.mk.injEq]
    omega
  unique hi hj := by
    simp only [verCellTr, verCellBl, Prod.mk.injEq]
    omega

/-! ## The stamps, cell by cell -/

section

variable {s : State} {e : BitVec 2} {m : BitVec 3} {r c : Nat}

theorem loadCell_stampFmtEffect_of_cell (h : hasMatrix s) {i : Nat} (hi : i < 15)
    (hp : (r, c) = fmtCell1 i ∨ (r, c) = fmtCell2 i s.matSize.toNat) :
    loadCell (stampFmtEffect e m s).mat r c = reservedCell ((fmtWord e m).getLsbD i) := by
  have hn := hasMatrix_size_ge h
  rw [stampFmtEffect_mat, fmtWrites_eq_bitWrites]
  exact loadCell_bitWrites_of_cell (fmtCells_cellsOfBits (by omega) (hasMatrix_size_le h)) _ hi hp

theorem loadCell_stampFmtEffect_of_no_cell
    (hp : ∀ i < 15, (r, c) ≠ fmtCell1 i ∧ (r, c) ≠ fmtCell2 i s.matSize.toNat) :
    loadCell (stampFmtEffect e m s).mat r c = loadCell s.mat r c := by
  rw [stampFmtEffect_mat, fmtWrites_eq_bitWrites]
  exact loadCell_bitWrites_of_no_cell _ hp

theorem stampVerEffect_below_7 (hv : s.matVersion.toNat < 7) : stampVerEffect s = s := if_neg (by omega)

theorem loadCell_stampVerEffect_of_cell (h : hasMatrix s) (hv : 7 ≤ s.matVersion.toNat) {i : Nat} (hi : i < 18)
    (hp : (r, c) = verCellTr i s.matSize.toNat ∨ (r, c) = verCellBl i s.matSize.toNat) :
    loadCell (stampVerEffect s).mat r c = reservedCell ((verWord s.matVersion.toNat).getLsbD i) := by
  have hn := hasMatrix_size_ge h
  rw [stampVerEffect_mat, if_pos hv, verWrites_eq_bitWrites]
  exact loadCell_bitWrites_of_cell (verCells_cellsOfBits (by omega) (hasMatrix_size_le h)) _ hi hp

theorem loadCell_stampVerEffect_of_no_cell
    (hp : ∀ i < 18, (r, c) ≠ verCellTr i s.matSize.toNat ∧ (r, c) ≠ verCellBl i s.matSize.toNat) :
    loadCell (stampVerEffect s).mat r c = loadCell s.mat r c := by
  rw [stampVerEffect_mat]
  split
  · rw [verWrites_eq_bitWrites]
    exact loadCell_bitWrites_of_no_cell _ hp
  · rfl

end

/-- STAMP_VER writes nothing but M. -/
theorem complete_stampVerEffect_frame (s : State) :
    complete (stampVerEffect s) = { s with mat := (complete (stampVerEffect s)).mat, busy := false, done := true } := by
  unfold stampVerEffect
  split <;> rfl

end Sys2Proof.Machine

namespace Sys2Proof.Proofs

open Sys2Proof.Machine

/-- Settles O37: the 30 format cells are different cells of M, so each keeps the bit written to it. -/
theorem stampFmtWritesTheFormatCells : Obligations.StampFmtWritesTheFormatCells := fun s h =>
  ⟨_, exec_eq .stampFmt s, rfl,
    fun _ hi => ⟨loadCell_stampFmtEffect_of_cell h hi (.inl rfl), loadCell_stampFmtEffect_of_cell h hi (.inr rfl)⟩,
    fun _ _ hp => loadCell_stampFmtEffect_of_no_cell hp⟩

/-- Settles O38: below version 7 there is nothing to write, and from 7 the 36 version cells are different cells of M. -/
theorem stampVerWritesTheVersionCells : Obligations.StampVerWritesTheVersionCells := fun s h =>
  ⟨_, exec_eq .stampVer s, complete_stampVerEffect_frame s,
    fun hv => (complete_mat _).trans (congrArg State.mat (stampVerEffect_below_7 hv)),
    fun hv _ hi =>
      ⟨loadCell_stampVerEffect_of_cell h hv hi (.inl rfl), loadCell_stampVerEffect_of_cell h hv hi (.inr rfl)⟩,
    fun _ _ hp => loadCell_stampVerEffect_of_no_cell hp⟩

end Sys2Proof.Proofs
end

section
/-! PROOF. What BUILD and ENCODE write and what they leave (44_composite.md R220, R222). -/

namespace Sys2Proof.Machine

theorem buildEffect_frame (l : Latch) (s : State) :
    buildEffect l s =
      { s with
        mat := (buildEffect l s).mat
        matVersion := l.version
        matSize := (buildEffect l s).matSize
        placed := (buildEffect l s).placed
        trunc := (buildEffect l s).trunc } := by
  unfold buildEffect stampVerEffect
  split <;> rfl

@[simp] theorem buildEffect_cw (l : Latch) (s : State) : (buildEffect l s).cw = s.cw := by
  rw [buildEffect_frame]

@[simp] theorem buildEffect_ecunsup (l : Latch) (s : State) : (buildEffect l s).ecunsup = s.ecunsup := by
  rw [buildEffect_frame]

theorem complete_buildEffect_frame (l : Latch) (s : State) :
    complete (buildEffect l s) =
      { s with
        mat := (complete (buildEffect l s)).mat
        matVersion := l.version
        matSize := (complete (buildEffect l s)).matSize
        placed := (complete (buildEffect l s)).placed
        trunc := (complete (buildEffect l s)).trunc
        busy := false
        done := true } :=
  congrArg complete (buildEffect_frame l s)

/-- ENCODE writes what BUILD writes, and CW and ECUNSUP. -/
theorem complete_encodeEffect_frame (l : Latch) (s : State) :
    complete (encodeEffect l s) =
      { s with
        cw := (complete (encodeEffect l s)).cw
        ecunsup := (complete (encodeEffect l s)).ecunsup
        mat := (complete (encodeEffect l s)).mat
        matVersion := l.version
        matSize := (complete (encodeEffect l s)).matSize
        placed := (complete (encodeEffect l s)).placed
        trunc := (complete (encodeEffect l s)).trunc
        busy := false
        done := true } := by
  rw [encodeEffect, complete_buildEffect_frame]
  simp

end Sys2Proof.Machine

namespace Sys2Proof.Proofs

open Sys2Proof.Machine

/-- Settles O39: the effect of BUILD is the chain of the five. -/
theorem buildChainsTheFiveSteps : Obligations.BuildChainsTheFiveSteps := fun s =>
  ⟨_, exec_eq .build s, rfl, complete_buildEffect_frame s.latch s⟩

/-- Settles O40: the effect of ENCODE is the chain of the two, and RS_GEN leaves what BUILD leaves but CW and ECUNSUP. -/
theorem encodeChainsRsGenAndBuild : Obligations.EncodeChainsRsGenAndBuild := fun s =>
  ⟨_, exec_eq .encode s, rfl, complete_encodeEffect_frame s.latch s⟩

end Sys2Proof.Proofs
end

section
/-! PROOF. Commands written one after the other, each completed before the next (40_command_control.md R110 to R114), and
what BUILD and ENCODE have in common with the commands they are made of (44_composite.md R221, R223). -/

namespace Sys2Proof.Machine

open Sys2Proof.Claims

/-! ## A command from its write to its completion -/

/-- What the acceptance and the completion of a command make of an idle block (40_command_control.md R112, R114). -/
def afterCommand (i : Instr) (s : State) : State := complete (effect i (accept (encode i) s))

/-- An idle block whose CONFIG and lengths every command accepts. -/
structure Ready (s : State) : Prop where
  idle : s.busy = false
  version : 1 ≤ s.version.toNat ∧ s.version.toNat ≤ 29
  lengths : s.dataLen.toNat + s.ecLen.toNat ≤ 4096

theorem Ready.version_ne_zero {s : State} (h : Ready s) : s.version ≠ 0 := fun h0 =>
  absurd h.version.1 (by rw [h0]; decide)

/-- On such a block only a missing matrix stops a command. -/
theorem Ready.issueError_eq_none {s : State} (h : Ready s) {i : Instr}
    (hm : needsMatrix i = true → s.matVersion ≠ 0) : issueError i s = none := by
  rw [issueError_eq, if_neg fun hv => hv.2 h.version, if_neg fun hn => hm ((needsMatrix_iff i).2 hn.1) hn.2,
    if_neg fun ho => absurd h.lengths (Nat.not_le.2 ho.2)]

theorem Ready.after {s : State} (h : Ready s) (i : Instr) : Ready (afterCommand i s) := by
  obtain ⟨-, -, -, -, -, hv, -, -, hd, he, -⟩ := effect_frame i (accept (encode i) s)
  exact ⟨rfl, by simpa [afterCommand, hv] using h.version, by simpa [afterCommand, hd, he] using h.lengths⟩

theorem afterCommand_matVersion (i : Instr) (s : State) :
    (afterCommand i s).matVersion = if needsVersion i then s.version else s.matVersion :=
  effect_matVersion i (accept (encode i) s)

/-! ## Runs of commands -/

/-- The host writes each command and lets the engine complete it before it writes the next. -/
def commandEvents (is : List Instr) : List Event := is.flatMap fun i => [cmdWrite (encode i), .engine]

/-- No command of the list needs a matrix before there is one; `present` says whether there is one at the start. -/
def matrixInTime (present : Bool) : List Instr → Bool
  | [] => true
  | i :: is => (!needsMatrix i || present) && matrixInTime (present || needsVersion i) is

theorem run_commandEvents {s : State} (h : Ready s) {present : Bool} (hp : present = true → s.matVersion ≠ 0)
    (d : Option Word) {is : List Instr} (hm : matrixInTime present is = true) :
    run (2 * is.length) (setSchedule (commandEvents is) d s) =
      .next (setSchedule [] d (is.foldl (fun t i => afterCommand i t) s)) := by
  induction is generalizing s present with
  | nil => rfl
  | cons i is ih =>
    obtain ⟨hi, his⟩ := Bool.and_eq_true_iff.1 hm
    have hissue : issueError i s = none := h.issueError_eq_none fun hn => hp (by simpa [hn] using hi)
    have hp' : (present || needsVersion i) = true → (afterCommand i s).matVersion ≠ 0 := fun hor => by
      rw [afterCommand_matVersion]
      split_ifs with hn
      · exact h.version_ne_zero
      · exact hp (by simpa [hn] using hor)
    have hwrite := step_cmdWrite d (.engine :: commandEvents is) h.idle hissue
    have hengine := step_engine d (commandEvents is) (s := accept (encode i) s) rfl (decode_encode i)
    exact (run_succ hwrite _).trans ((run_succ hengine _).trans (ih (h.after i) hp' his))

/-! ## The latch, BUSY and DONE -/

/-- `s` with the command latch, BUSY and DONE replaced. -/
def setControl (l : Latch) (busy done : Bool) (s : State) : State := { s with latch := l, busy, done }

/-- The latch that the acceptance of a command loads (40_command_control.md R112). -/
def latchFor (i : Instr) (s : State) : Latch := ⟨encode i, s.version, s.ecl, s.mask, s.dataLen, s.ecLen⟩

section

variable (l : Latch) (busy done : Bool) (s : State)

theorem rsGenEffect_setControl (k n : Nat) :
    rsGenEffect k n (setControl l busy done s) = setControl l busy done (rsGenEffect k n s) := by
  have hn : (setControl l busy done s).ecLengths = s.ecLengths := rfl
  unfold rsGenEffect
  rw [hn]
  split
  · rfl
  · split <;> rfl

theorem matInitEffect_setControl (v : BitVec 5) :
    matInitEffect v (setControl l busy done s) = setControl l busy done (matInitEffect v s) := by
  simp only [matInitEffect, setControl]

theorem placeEffect_setControl (N : Nat) :
    placeEffect N (setControl l busy done s) = setControl l busy done (placeEffect N s) := by
  have hp : placeLoop (setControl l busy done s).matSize.toNat (streamBit (setControl l busy done s) N)
      (setControl l busy done s).mat = placeLoop s.matSize.toNat (streamBit s N) s.mat := rfl
  simp only [placeEffect, hp]
  rfl

theorem maskEffect_setControl (id : BitVec 3) :
    maskEffect id (setControl l busy done s) = setControl l busy done (maskEffect id s) := by
  simp only [maskEffect, setControl]

theorem stampFmtEffect_setControl (e : BitVec 2) (m : BitVec 3) :
    stampFmtEffect e m (setControl l busy done s) = setControl l busy done (stampFmtEffect e m s) := by
  simp only [stampFmtEffect, setControl]

theorem stampVerEffect_setControl :
    stampVerEffect (setControl l busy done s) = setControl l busy done (stampVerEffect s) := by
  have hv : (setControl l busy done s).matVersion = s.matVersion := rfl
  unfold stampVerEffect
  rw [hv]
  split <;> rfl

theorem buildEffect_setControl (k : Latch) :
    buildEffect k (setControl l busy done s) = setControl l busy done (buildEffect k s) := by
  simp only [buildEffect, matInitEffect_setControl, placeEffect_setControl, maskEffect_setControl,
    stampFmtEffect_setControl, stampVerEffect_setControl]

theorem encodeEffect_setControl (k : Latch) :
    encodeEffect k (setControl l busy done s) = setControl l busy done (encodeEffect k s) := by
  simp only [encodeEffect, rsGenEffect_setControl, buildEffect_setControl]

/-- Acceptance loads the latch and sets BUSY and DONE, whatever they were. -/
theorem afterCommand_setControl (i : Instr) : afterCommand i (setControl l busy done s) = afterCommand i s := rfl

end

/-! ## A command with its operands from the registers -/

section

variable (s : State)

/-- A command whose effect does not read BUSY and DONE and takes from the latch only its operands leaves that effect. -/
theorem afterCommand_eq {i : Instr} {t : State}
    (h : effect i (setControl (latchFor i s) true false s) = setControl (latchFor i s) true false t) :
    afterCommand i s = setControl (latchFor i s) false true t :=
  congrArg complete h

theorem afterCommand_rsGen : afterCommand .rsGen s =
    setControl (latchFor .rsGen s) false true (rsGenEffect s.dataLen.toNat s.ecLen.toNat s) :=
  afterCommand_eq s (rsGenEffect_setControl _ true false s _ _)

theorem afterCommand_matInit : afterCommand .matInit s =
    setControl (latchFor .matInit s) false true (matInitEffect s.version s) :=
  afterCommand_eq s (matInitEffect_setControl _ true false s _)

theorem afterCommand_place : afterCommand .place s =
    setControl (latchFor .place s) false true (placeEffect (s.dataLen.toNat + s.ecLen.toNat) s) :=
  afterCommand_eq s (placeEffect_setControl _ true false s _)

theorem afterCommand_mask : afterCommand .mask s =
    setControl (latchFor .mask s) false true (maskEffect s.mask s) :=
  afterCommand_eq s (maskEffect_setControl _ true false s _)

theorem afterCommand_stampFmt : afterCommand .stampFmt s =
    setControl (latchFor .stampFmt s) false true (stampFmtEffect s.ecl s.mask s) :=
  afterCommand_eq s (stampFmtEffect_setControl _ true false s _ _)

theorem afterCommand_stampVer : afterCommand .stampVer s =
    setControl (latchFor .stampVer s) false true (stampVerEffect s) :=
  afterCommand_eq s (stampVerEffect_setControl _ true false s)

theorem afterCommand_build : afterCommand .build s =
    setControl (latchFor .build s) false true (buildEffect (latchFor .build s) s) :=
  afterCommand_eq s (buildEffect_setControl _ true false s _)

theorem afterCommand_encode : afterCommand .encode s =
    setControl (latchFor .encode s) false true (encodeEffect (latchFor .encode s) s) :=
  afterCommand_eq s (encodeEffect_setControl _ true false s _)

/-! ## The composite commands and their parts -/

/-- The five commands leave the effect of BUILD, under the latch of the last one (44_composite.md R221). -/
theorem foldl_afterCommand_build_parts :
    [Instr.matInit, .place, .mask, .stampFmt, .stampVer].foldl (fun t i => afterCommand i t) s =
      setControl (latchFor .stampVer s) false true (buildEffect (latchFor .build s) s) := by
  simp only [List.foldl_cons, List.foldl_nil, afterCommand_matInit, afterCommand_place, afterCommand_mask,
    afterCommand_stampFmt, afterCommand_stampVer, afterCommand_setControl]
  simp [latchFor, buildEffect]

/-- RS_GEN and BUILD leave the effect of ENCODE, under the latch of BUILD (44_composite.md R223). -/
theorem foldl_afterCommand_encode_parts :
    [Instr.rsGen, .build].foldl (fun t i => afterCommand i t) s =
      setControl (latchFor .build s) false true (encodeEffect (latchFor .encode s) s) := by
  simp only [List.foldl_cons, List.foldl_nil, afterCommand_rsGen, afterCommand_build, afterCommand_setControl]
  simp [latchFor, encodeEffect, buildEffect]

end

/-! ## A rejected command -/

theorem raiseError_setSchedule (code : ErrCode) (info : Word) (q : List Event) (d : Option Word) (s : State) :
    raiseError code info (setSchedule q d s) = setSchedule q d (raiseError code info s) := by
  have he : (setSchedule q d s).err = s.err := rfl
  unfold raiseError
  rw [he]
  split <;> rfl

/-- A command that an idle block rejects leaves the engine nothing to do. -/
theorem run_rejected {s : State} {i : Instr} {code : ErrCode} (hb : s.busy = false) (hi : issueError i s = some code)
    (d : Option Word) :
    run 2 (setSchedule (commandEvents [i]) d s) = .next (setSchedule [] d (raiseError code (encode i) s)) := by
  have hi' : issueError i (setSchedule [.engine] d s) = some code := hi
  have hwrite : step (setSchedule (commandEvents [i]) d s) =
      .next (setSchedule [.engine] d (raiseError code (encode i) s)) :=
    congrArg Host.Outcome.next <|
      calc hostWrite 0x008#17 .word (encode i) (setSchedule [.engine] d s)
        _ = issue (encode i) (setSchedule [.engine] d s) := hostWrite_register (by decide) (by decide) _ _
        _ = raiseError code (encode i) (setSchedule [.engine] d s) := by
          rw [issue_legal (s := setSchedule [.engine] d s) hb (decode_encode i), hi', Option.elim_some]
        _ = _ := raiseError_setSchedule ..
  have hengine : step (setSchedule [.engine] d (raiseError code (encode i) s)) =
      .next (setSchedule [] d (raiseError code (encode i) s)) := by
    simp [step, nextTurn, serve, engineTurn, setSchedule, hb]
  exact (run_succ hwrite 1).trans (run_succ hengine 0)

end Sys2Proof.Machine

namespace Sys2Proof.Proofs

open Sys2Proof.Machine

/-- Settles O41: the five commands leave the effect of BUILD, under the latch of the last one. -/
theorem buildEqualsItsFiveCommands : Obligations.BuildEqualsItsFiveCommands := by
  intro s hb h1 h29 hl
  have h : Ready s := ⟨hb, ⟨h1, h29⟩, hl⟩
  refine ⟨_, _, run_commandEvents h (present := false) nofun s.readData (is := [.build]) (by decide),
    run_commandEvents h (present := false) nofun s.readData
      (is := [.matInit, .place, .mask, .stampFmt, .stampVer]) (by decide), ?_⟩
  rw [foldl_afterCommand_build_parts, List.foldl_cons, List.foldl_nil, afterCommand_build]
  rfl

/-- Settles O42: RS_GEN and BUILD leave the effect of ENCODE, under the latch of BUILD; a bad version stops ENCODE at its
issue. -/
theorem encodeEqualsRsGenThenBuild : Obligations.EncodeEqualsRsGenThenBuild := by
  intro s hb
  refine ⟨fun h1 h29 hl => ?_, fun hv => ?_⟩
  · have h : Ready s := ⟨hb, ⟨h1, h29⟩, hl⟩
    refine ⟨_, _, run_commandEvents h (present := false) nofun s.readData (is := [.encode]) (by decide),
      run_commandEvents h (present := false) nofun s.readData (is := [.rsGen, .build]) (by decide), ?_⟩
    rw [foldl_afterCommand_encode_parts, List.foldl_cons, List.foldl_nil, afterCommand_encode]
    rfl
  · have hi : issueError .encode s = some .badVersion :=
      (issueError_eq .encode s).trans (if_pos ⟨by decide, hv⟩)
    exact (run_rejected hb hi s.readData).trans (congrArg Host.Outcome.next (raiseError_setSchedule ..).symm)

end Sys2Proof.Proofs
end

section
/-! PROOF. BUILD on two states that differ in the matrix memory: MAT_INIT makes the squares alike, and each later step
keeps them so (42_matrix.md R161, 44_composite.md R220). -/

namespace Sys2Proof.Machine

open Sys2Proof.Claims

/-- The states agree in every field but M, and in every cell of the square. -/
def SameSymbol (s t : State) : Prop :=
  t = { s with mat := t.mat } ∧
    ∀ r c, r < s.matSize.toNat → c < s.matSize.toNat → loadCell t.mat r c = loadCell s.mat r c

theorem SameSymbol.exists_mat {s t : State} (h : SameSymbol s t) :
    ∃ m, t = { s with mat := m } ∧
      ∀ r c, r < s.matSize.toNat → c < s.matSize.toNat → loadCell m r c = loadCell s.mat r c :=
  ⟨t.mat, h⟩

/-- The same writes leave alike a cell that was alike. -/
theorem loadCell_storeCells_congr (ws : List CellWrite) {m m' : Matrix} {r c : Nat}
    (h : loadCell m' r c = loadCell m r c) : loadCell (storeCells m' ws) r c = loadCell (storeCells m ws) r c := by
  induction ws generalizing m m' with
  | nil => exact h
  | cons w ws ih => exact ih (by rw [loadCell_storeCell, loadCell_storeCell, h])

theorem sameSymbol_matInitEffect (s : State) {v : BitVec 5} {m : Matrix} (u : BitVec 5) (n : BitVec 8) (p : BitVec 16)
    (hs : matWf s.mat) (hm : matWf m) (h1 : 1 ≤ v.toNat) (h29 : v.toNat ≤ 29) :
    SameSymbol (matInitEffect v s)
      (matInitEffect v { s with mat := m, matVersion := u, matSize := n, placed := p }) := by
  refine ⟨by simp only [matInitEffect], fun r c hr hc => ?_⟩
  rw [matInitEffect_matSize_toNat h1 h29] at hr hc
  rw [loadCell_matInitEffect_inside h1 h29 hs hr hc]
  exact loadCell_matInitEffect_inside h1 h29 hm hr hc

section

variable {s t : State} (h : SameSymbol s t)

include h

theorem SameSymbol.freeCells_eq (hs : hasMatrix s) : freeCells t = freeCells s := by
  obtain ⟨m, rfl, hc⟩ := h.exists_mat
  obtain ⟨v, -, -, hn⟩ := hasMatrix_size hs
  refine List.filter_congr fun p hp => ?_
  obtain ⟨hr, hc', -⟩ := (mem_zigzag hn).1 hp
  rw [hc p.1 p.2 hr hc']

theorem SameSymbol.place (hs : hasMatrix s) (N : Nat) : SameSymbol (placeEffect N s) (placeEffect N t) := by
  have hfree := h.freeCells_eq hs
  obtain ⟨m, rfl, hc⟩ := h.exists_mat
  have ht : hasMatrix { s with mat := m } := hs
  constructor
  · rw [placeEffect, placeEffect, placeLoop_eq hs, placeLoop_eq ht, hfree]
  · intro r c hr hc'
    by_cases hf : (r, c) ∈ freeCells s
    · obtain ⟨i, hi⟩ := List.mem_iff_getElem?.1 hf
      rw [loadCell_placeEffect_free hs N hi]
      exact loadCell_placeEffect_free ht N (hfree ▸ hi)
    · rw [loadCell_placeEffect_of_not_free hs N hf, loadCell_placeEffect_of_not_free ht N (hfree ▸ hf)]
      exact hc r c hr hc'

theorem SameSymbol.mask (hs : hasMatrix s) (id : BitVec 3) : SameSymbol (maskEffect id s) (maskEffect id t) := by
  obtain ⟨m, rfl, hc⟩ := h.exists_mat
  refine ⟨by simp only [maskEffect], fun r c hr hc' => ?_⟩
  rw [loadCell_maskEffect hs, loadCell_maskEffect (s := { s with mat := m }) hs, hc r c hr hc']

theorem SameSymbol.stampFmt (e : BitVec 2) (k : BitVec 3) :
    SameSymbol (stampFmtEffect e k s) (stampFmtEffect e k t) := by
  obtain ⟨m, rfl, hc⟩ := h.exists_mat
  refine ⟨by simp only [stampFmtEffect], fun r c hr hc' => ?_⟩
  rw [stampFmtEffect_mat, stampFmtEffect_mat]
  exact loadCell_storeCells_congr _ (hc r c hr hc')

theorem SameSymbol.stampVer : SameSymbol (stampVerEffect s) (stampVerEffect t) := by
  obtain ⟨m, rfl, hc⟩ := h.exists_mat
  unfold stampVerEffect
  by_cases hv : 7 ≤ s.matVersion.toNat
  · rw [if_pos hv, if_pos hv]
    exact ⟨rfl, fun r c hr hc' => loadCell_storeCells_congr _ (hc r c hr hc')⟩
  · rw [if_neg hv, if_neg hv]
    exact h

theorem SameSymbol.completed : SameSymbol (complete s) (complete t) :=
  ⟨congrArg complete h.1, h.2⟩

end

theorem sameSymbol_buildEffect {l : Latch} {s : State} {m : Matrix} (u : BitVec 5) (n : BitVec 8) (p : BitVec 16)
    (hs : matWf s.mat) (hm : matWf m) (h1 : 1 ≤ l.version.toNat) (h29 : l.version.toNat ≤ 29) :
    SameSymbol (buildEffect l s)
      (buildEffect l { s with mat := m, matVersion := u, matSize := n, placed := p }) := by
  have hinit : hasMatrix (matInitEffect l.version s) := hasMatrix_matInitEffect h1 h29
  have hplace : hasMatrix (placeEffect (l.dlen.toNat + l.elen.toNat) (matInitEffect l.version s)) := hinit
  exact ((((sameSymbol_matInitEffect s u n p hs hm h1 h29).place hinit _).mask hplace _).stampFmt _ _).stampVer

end Sys2Proof.Machine

namespace Sys2Proof.Proofs

open Sys2Proof.Machine

/-- Settles O43: MAT_INIT sets every cell of the square, and what the other four do inside it depends on its cells. -/
theorem buildDoesNotReadTheOldMatrix : Obligations.BuildDoesNotReadTheOldMatrix := by
  intro s m v n p hs hm h1 h29
  obtain ⟨hframe, hcells⟩ := (sameSymbol_buildEffect v n p hs hm h1 h29).completed
  exact ⟨_, _, exec_eq .build s, exec_eq .build _, hframe, hcells⟩

end Sys2Proof.Proofs
end

section
/-! PROOF. Errors in place of stops, the served event, the access descriptor and the interrupt output
(60_exceptions.md R230, R232, R233, R235, R236, R240). -/

namespace Sys2Proof.Machine

/-! ## Steps -/

/-- The latch of a running command of a legal state holds a command, so the engine's turn is no stop. -/
theorem exists_decode_latch {s : State} (h : Inv s) (hb : s.busy = true) : ∃ i, decode s.latch.word = .ok i := by
  have hrun := h.running hb
  unfold latchRunnable at hrun
  cases hd : decode s.latch.word with
  | ok i => exact ⟨i, rfl⟩
  | error e => simp [hd] at hrun

theorem step_of_served {s t : State} (h : nextTurn s = .served t) : step s = .next t := by
  simp only [step, h]

theorem nextTurn_cons {s : State} {e : Event} {rest : List Event} (h : s.inbox = e :: rest) :
    nextTurn s = serve e { s with inbox := rest } := by
  rw [nextTurn, h]

theorem nextTurn_nil {s : State} (h : s.inbox = []) : nextTurn s = engineTurn s := by
  rw [nextTurn, h]

theorem engineTurn_idle {s : State} (hb : s.busy = false) : engineTurn s = .served s := by
  simp [engineTurn, hb]

/-! ## Recording an error -/

theorem raiseError_first {s : State} (h : s.err = false) (code : ErrCode) (info : Word) :
    raiseError code info s = { s with err := true, errCode := code, errInfo := info } := by
  simp [raiseError, h]

theorem raiseError_later {s : State} (h : s.err = true) (code : ErrCode) (info : Word) :
    raiseError code info s = { s with errMult := true } := if_pos h

theorem accessRefused_narrow_register {off : Offset} {w : Width} (h : off.toNat < 0x1000) (hw : w ≠ .word) (s : State) :
    accessRefused off w s = true := by
  simp [accessRefused_register h, hw]

/-! ## The access descriptor, field by field -/

section

variable (off : Offset) (w : Width) (isWrite : Bool)

theorem accessInfo_offset : (accessInfo off w isWrite).extractLsb' 0 17 = off :=
  BitVec.extractLsb'_append_eq_right

theorem accessInfo_reserved_low : (accessInfo off w isWrite).extractLsb' 17 7 = 0#7 := by
  unfold accessInfo
  rw [BitVec.extractLsb'_append_eq_of_le (by decide)]
  exact BitVec.extractLsb'_append_eq_right

theorem accessInfo_width : (accessInfo off w isWrite).extractLsb' 24 2 = w.code := by
  unfold accessInfo
  repeat rw [BitVec.extractLsb'_append_eq_of_le (by decide)]
  exact BitVec.extractLsb'_append_eq_right

theorem accessInfo_reserved_high : (accessInfo off w isWrite).extractLsb' 26 5 = 0#5 := by
  unfold accessInfo
  repeat rw [BitVec.extractLsb'_append_eq_of_le (by decide)]
  exact BitVec.extractLsb'_append_eq_right

theorem accessInfo_write : (accessInfo off w isWrite).getLsbD 31 = isWrite := by
  simp only [accessInfo, bit, BitVec.getLsbD_append]
  simp

theorem Width.code_ne_three : w.code ≠ 3#2 := by
  cases w <;> decide

end

/-! ## The interrupt output -/

theorem irq_iff (s : State) : irq s = true ↔ s.irqEn = true ∧ (s.done = true ∨ s.err = true) := by
  simp [irq]

theorem irq_accept (w : Word) (s : State) : irq (accept w s) = (s.irqEn && s.err) := by
  simp [irq]

theorem irq_complete (s : State) : irq (complete s) = s.irqEn := by
  simp [irq]

theorem irq_raiseError (code : ErrCode) (info : Word) (s : State) : irq (raiseError code info s) = s.irqEn := by
  simp [irq]

end Sys2Proof.Machine

namespace Sys2Proof.Proofs

open Sys2Proof.Machine

/-- Settles O7: of the things a step can do only the turn at a latch without a command stops, and the invariant shuts it
out. -/
theorem noStepStops : Obligations.NoStepStops := by
  intro s h
  rcases step_cases s with ⟨_, _, _, -, hs⟩ | ⟨_, _, _, _, -, hs⟩ | ⟨_, -, hs⟩ |
    ⟨_, -, ⟨-, hs⟩ | ⟨_, -, -, hs⟩ | ⟨e, hb, he, -⟩⟩
  · exact ⟨_, hs⟩
  · exact ⟨_, hs⟩
  · exact ⟨_, hs⟩
  · exact ⟨_, hs⟩
  · exact ⟨_, hs⟩
  · obtain ⟨i, hi⟩ := exists_decode_latch h hb
    cases hi.symm.trans he

/-- Settles O5: the first entry of the inbox is what is served, and an idle engine's turn is served with no change. -/
theorem stepServesOneEvent : Obligations.StepServesOneEvent := by
  intro s rest
  refine ⟨fun off w h => step_of_served (nextTurn_cons h), fun off w v h => step_of_served (nextTurn_cons h),
    fun h => step_of_served (nextTurn_cons h), fun hb h => step_of_served ?_, fun hb h => step_of_served ?_⟩
  · exact (nextTurn_cons h).trans (engineTurn_idle hb)
  · exact (nextTurn_nil h).trans (engineTurn_idle hb)

/-- Settles O14, with ERR = 0 and with ERR = 1. -/
theorem firstErrorIsKept : Obligations.FirstErrorIsKept := fun code info _ =>
  ⟨fun h => raiseError_first h code info, fun h => raiseError_later h code info⟩

/-- Settles O15: CMD is a register, and a register refuses a narrow access. -/
theorem narrowCmdWriteIssuesNothing : Obligations.NarrowCmdWriteIssuesNothing := fun _ v s hw =>
  hostWrite_refused (accessRefused_narrow_register (by decide) hw s) v

/-- Settles O55, field by field; the three examples of R233 are evaluated. -/
theorem accessDescriptorFields : Obligations.AccessDescriptorFields := fun off w b =>
  ⟨accessInfo_offset off w b, accessInfo_reserved_low off w b, accessInfo_width off w b,
    accessInfo_reserved_high off w b, accessInfo_write off w b, Width.code_ne_three w, by decide, by decide, by decide⟩

/-- Settles O56, from the values of DONE and ERR after each operation. -/
theorem interruptFollowsDoneAndErr : Obligations.InterruptFollowsDoneAndErr := fun s =>
  ⟨irq_iff s, fun w => irq_accept w s, irq_complete s, fun code info => irq_raiseError code info s⟩

end Sys2Proof.Proofs
end

section
/-! PROOF. A running command up to its completion, with host accesses in between (70_reset_and_hazards.md R271). -/

namespace Sys2Proof.Machine

open Sys2Proof.Claims

/-- A step of a running command that serves no reset completes the command, or serves a host access and leaves the
command as it is. -/
theorem step_running {s : State} {i : Instr} (hb : s.busy = true) (hd : decode s.latch.word = .ok i)
    (hr : Event.reset ∉ s.inbox) :
    (∃ t, step s = .next t ∧ t.busy = false ∧ t.done = true) ∨
      ∃ e rest t, s.inbox = e :: rest ∧ step s = .next t ∧ SameCommand { s with inbox := rest } t := by
  rcases step_cases s with ⟨off, w, rest, hin, hs⟩ | ⟨off, w, v, rest, hin, hs⟩ | ⟨rest, hin, -⟩ |
    ⟨rest, -, ⟨hidle, -⟩ | ⟨j, -, -, hs⟩ | ⟨e, -, he, -⟩⟩
  · exact .inr ⟨_, rest, _, hin, hs, sameCommand_hostRead off w _⟩
  · exact .inr ⟨_, rest, _, hin, hs, sameCommand_hostWrite (s := { s with inbox := rest }) hb off w v⟩
  · simp [hin] at hr
  · exact absurd (hb.symm.trans hidle) (by decide)
  · exact .inl ⟨_, hs, complete_busy _, complete_done _⟩
  · cases hd.symm.trans he

/-- A running command completes at the latest when the inbox is used up, by induction on the inbox: each entry is the
engine's turn or a host access that leaves the command as it is. -/
theorem exists_run_completes {q : List Event} {s : State} {i : Instr} (hq : s.inbox = q) (hb : s.busy = true)
    (hd : decode s.latch.word = .ok i) (hr : Event.reset ∉ q) :
    ∃ k t, 1 ≤ k ∧ k ≤ q.length + 1 ∧ run k s = .next t ∧ t.busy = false ∧ t.done = true := by
  induction q generalizing s with
  | nil =>
    obtain ⟨t, hs, ht⟩ | ⟨e, rest, t, hin, -⟩ := step_running hb hd (hq ▸ hr)
    · exact ⟨1, t, le_rfl, le_rfl, run_succ hs 0, ht⟩
    · cases hq.symm.trans hin
  | cons e q ih =>
    obtain ⟨t, hs, ht⟩ | ⟨_, _, t, hin, hs, hbusy, hlatch, hsame⟩ := step_running hb hd (hq ▸ hr)
    · exact ⟨1, t, le_rfl, by simp, run_succ hs 0, ht⟩
    · cases hq.symm.trans hin
      obtain ⟨-, -, -, -, -, -, -, hinbox⟩ := hsame
      obtain ⟨k, u, -, hk, hrun, hu⟩ :=
        ih hinbox (hbusy.trans hb) (hlatch ▸ hd) fun hmem => hr (List.mem_cons_of_mem _ hmem)
      exact ⟨k + 1, u, by omega, Nat.succ_le_succ hk, (run_succ hs k).trans hrun, hu⟩

end Sys2Proof.Machine

namespace Sys2Proof.Proofs

open Sys2Proof.Machine

/-- Settles O10: the latch of a legal busy state holds a command, which completes within the inbox and one more step. -/
theorem runningCommandCompletes : Obligations.RunningCommandCompletes := by
  intro s h hb hr
  obtain ⟨i, hd⟩ := exists_decode_latch h hb
  exact exists_run_completes rfl hb hd hr

end Sys2Proof.Proofs
end

section
/-! PROOF. PLACE with no free cell, and MASK before and after a stamp (70_reset_and_hazards.md R276, R277). -/

namespace Sys2Proof.Machine

open Sys2Proof.Claims

/-! ## No free cell -/

/-- The placement loop does nothing at cells that are not UNSET. -/
theorem foldl_placeVisit_of_unsetCells_nil (stream : Nat → Bool) {ps : List (Nat × Nat)} {m : Matrix}
    (h : unsetCells m ps = []) (k : Nat) : ps.foldl (placeVisit stream) (m, k) = (m, k) := by
  induction ps with
  | nil => rfl
  | cons p ps ih =>
    obtain ⟨hp, hps⟩ := List.forall_mem_cons.1 (List.filter_eq_nil_iff.1 h)
    have hvisit : placeVisit stream (m, k) p = (m, k) := if_neg fun hu => hp (decide_eq_true hu)
    rw [List.foldl_cons, hvisit, ih (List.filter_eq_nil_iff.2 hps)]

theorem placeEffect_of_no_free_cell {s : State} (h : freeCells s = []) (N : Nat) :
    placeEffect N s = { s with placed := 0, trunc := s.trunc || decide (0 < N) } := by
  have hloop : placeLoop s.matSize.toNat (streamBit s N) s.mat = (s.mat, 0) :=
    foldl_placeVisit_of_unsetCells_nil _ h 0
  have hbits : 0 < 8 * N ↔ 0 < N := by omega
  simp only [placeEffect, hloop, hbits]
  rfl

/-! ## A stamp and MASK -/

/-- A list of writes leaves a cell of every matrix, or gives it the content of one of the writes in every matrix. -/
theorem loadCell_storeCells_cases (ws : List CellWrite) (r c : Nat) :
    (∀ m, loadCell (storeCells m ws) r c = loadCell m r c) ∨
      ∃ w ∈ ws, ∀ m, loadCell (storeCells m ws) r c = w.2.2 := by
  induction ws with
  | nil => exact .inl fun m => rfl
  | cons v ws ih =>
    simp only [storeCells_cons]
    obtain hkeep | ⟨w, hw, hlast⟩ := ih
    · by_cases hv : r = v.1 ∧ c = v.2.1 ∧ v.1 < 133 ∧ v.2.1 < 133
      · exact .inr ⟨v, List.mem_cons_self .., fun m => by rw [hkeep, loadCell_storeCell, if_pos hv]⟩
      · exact .inl fun m => by rw [hkeep, loadCell_storeCell, if_neg hv]
    · exact .inr ⟨w, List.mem_cons_of_mem _ hw, fun m => hlast _⟩

theorem maskedCell_of_not_data {id : BitVec 3} {r c : Nat} {x : MatCell} (hx : x.kind ≠ .data) :
    maskedCell id r c x = x := if_neg fun h => hx h.1

/-- MASK commutes with writes that leave no DATA cell behind: such a cell it does not invert, and at any other cell the
writes do nothing. -/
theorem loadCell_storeCells_maskEffect {s : State} (h : hasMatrix s) (id : BitVec 3) {ws : List CellWrite}
    (hws : ∀ w ∈ ws, w.2.2.kind ≠ .data) (r c : Nat) :
    loadCell (storeCells (maskEffect id s).mat ws) r c =
      loadCell (maskEffect id { s with mat := storeCells s.mat ws }).mat r c := by
  have hstamped : hasMatrix { s with mat := storeCells s.mat ws } := h
  rw [loadCell_maskEffect hstamped]
  obtain hkeep | ⟨w, hw, hlast⟩ := loadCell_storeCells_cases ws r c
  · rw [hkeep, hkeep, loadCell_maskEffect h]
  · rw [hlast, hlast, maskedCell_of_not_data (hws w hw), ite_self]

theorem loadCell_stampFmtEffect_maskEffect {s : State} (h : hasMatrix s) (id : BitVec 3) (e : BitVec 2)
    (m : BitVec 3) (r c : Nat) :
    loadCell (stampFmtEffect e m (maskEffect id s)).mat r c =
      loadCell (maskEffect id (stampFmtEffect e m s)).mat r c :=
  loadCell_storeCells_maskEffect h id (fun w hw => by rw [fmtWrites_kind hw]; decide) r c

theorem loadCell_stampVerEffect_maskEffect {s : State} (h : hasMatrix s) (id : BitVec 3) (r c : Nat) :
    loadCell (stampVerEffect (maskEffect id s)).mat r c = loadCell (maskEffect id (stampVerEffect s)).mat r c := by
  rw [stampVerEffect_mat, maskEffect_matVersion, maskEffect_matSize, stampVerEffect]
  split
  · exact loadCell_storeCells_maskEffect h id (fun w hw => by rw [verWrites_kind hw]; decide) r c
  · rfl

end Sys2Proof.Machine

namespace Sys2Proof.Proofs

open Sys2Proof.Machine

/-- Settles O32: the placement loop finds nothing to do, and 8N stream bits are left over. -/
theorem secondPlacePlacesNothing : Obligations.SecondPlacePlacesNothing := by
  intro s h
  rw [exec_eq, effect, placeEffect_of_no_free_cell h]
  rfl

/-- Settles O36: a stamp writes RESERVED cells, which MASK does not invert. -/
theorem maskAndStampsCommute : Obligations.MaskAndStampsCommute := fun _ id e m r c h =>
  ⟨loadCell_stampFmtEffect_maskEffect h id e m r c, loadCell_stampVerEffect_maskEffect h id r c⟩

end Sys2Proof.Proofs
end

section
/-! PROOF. Reset, and what the registers read after it (10_state.md R52; 70_reset_and_hazards.md R260, R261). -/

namespace Sys2Proof.Machine

theorem step_reset {s : State} {rest : List Event} (h : s.inbox = .reset :: rest) :
    step s = .next (applyReset { s with inbox := rest }) := step_of_served (nextTurn_cons h)

/-- No register shows the parameter or the model's own fields, so after reset each reads what it reads in the reset
state. -/
theorem readRegister_applyReset (off : Nat) (s : State) :
    readRegister off (applyReset s) = readRegister off State.reset := rfl

theorem readValue_register {off : Offset} (h : off.toNat < 0x1000) (w : Width) (s : State) :
    readValue off w s = readRegister off.toNat s := by
  rw [readValue, region_registers h]

theorem readValue_applyReset {off : Offset} (h : off.toNat < 0x1000) (w : Width) (s : State) :
    readValue off w (applyReset s) = readRegister off.toNat State.reset := by
  rw [readValue_register h, readRegister_applyReset]

end Sys2Proof.Machine

namespace Sys2Proof.Proofs

open Sys2Proof.Machine

/-- Settles O57: after reset each register reads what it reads in the reset state, and those values are evaluated. -/
theorem registersAfterReset : Obligations.RegistersAfterReset := by
  intro s rest h
  refine ⟨_, step_reset h, rfl, rfl, rfl, ?_⟩
  refine ⟨?_, ?_, ?_, ?_, ?_, ?_, ?_, ?_, ?_, ?_, ?_⟩ <;>
    exact (readValue_applyReset (by decide) _ _).trans (by decide)

/-- Settles O58: the step is `applyReset`, which keeps nothing but the parameter and the model's own fields. -/
theorem resetAbandonsTheRunningCommand : Obligations.ResetAbandonsTheRunningCommand := fun _ _ h =>
  ⟨_, step_reset h, rfl⟩

end Sys2Proof.Proofs
end
